-- ==== Sys2Proof/Word.lean ====
section
/-! DEFINITION. The plainest types of the part: bytes, half words and words as the manual numbers their bits, the
four ports, one value per port, and sets of groups and bundles. -/

namespace Sys2Proof

/-- One byte of a frame, a response or an argument (R160, R176). -/
abbrev Byte := BitVec 8

/-- A 16-bit number: an epoch, a frame number, a count of 0 to 65535 (R176). -/
abbrev Half := BitVec 16

/-- A 32-bit word of an entry's value (R1, R176). -/
abbrev Word := BitVec 32

/-- A group, G0 to G15 (R23). -/
abbrev GroupId := Fin 16

/-- A bundle, B0 to B3 (R78). -/
abbrev BundleId := Fin 4

/-- A set of groups, "a 16-bit number whose bit n stands for Gn" (R176). -/
abbrev GroupSet := BitVec 16

/-- A set of bundles, bit n standing for Bn. -/
abbrev BundleSet := BitVec 4

/-- The four ports. -/
inductive Port where
  | p0
  | p1
  | p2
  | p3
  deriving DecidableEq, Repr

/-- The ports in the order P0, P1, P2, P3, in which notices to several ports are queued (R85, R114, R142). -/
def Port.all : List Port := [.p0, .p1, .p2, .p3]

/-- One value for each of P0 to P3. -/
structure PerPort (α : Type) where
  p0 : α
  p1 : α
  p2 : α
  p3 : α
  deriving DecidableEq, Repr

/-- The value of one port. -/
def PerPort.get {α : Type} (v : PerPort α) : Port → α
  | .p0 => v.p0
  | .p1 => v.p1
  | .p2 => v.p2
  | .p3 => v.p3

/-- The same values but for one port's. -/
def PerPort.set {α : Type} (v : PerPort α) (p : Port) (a : α) : PerPort α :=
  match p with
  | .p0 => { v with p0 := a }
  | .p1 => { v with p1 := a }
  | .p2 => { v with p2 := a }
  | .p3 => { v with p3 := a }

/-- The values that a function gives the ports. -/
def PerPort.ofFun {α : Type} (f : Port → α) : PerPort α := ⟨f .p0, f .p1, f .p2, f .p3⟩

/-- The same value at every port. -/
def PerPort.fill {α : Type} (a : α) : PerPort α := ⟨a, a, a, a⟩

/-- A set of ports: which of P0 to P3 are in it. -/
abbrev PortSet := PerPort Bool

/-- The set of no port. -/
def PortSet.none : PortSet := PerPort.fill false

/-- The set of all four ports. -/
def PortSet.every : PortSet := PerPort.fill true

end Sys2Proof
end

