-- ==== Sys2Proof/Config.lean ====
section
/-! DEFINITION. The constants of the part. The manual leaves no value open to an implementation that a command or a
response could show, so there is no free value here (NOTES.md, Assumptions). -/

namespace Sys2Proof.Config

/-- Words of the value store (R3). -/
def storeWords : Nat := 512

/-- The places of a notice queue (R170). -/
def queueCapacity : Nat := 32

/-- CLK periods in one microsecond, at 25 MHz (R124). -/
def clkPerMicrosecond : Nat := 25

/-- The frame period after device reset, in microseconds (R122). -/
def resetPeriod : Word := 20000#32

/-- The shortest and the longest frame period that SET_FRAME takes, in microseconds (R123). -/
def minPeriod : Nat := 100
def maxPeriod : Nat := 1000000

/-- The length of a COMMIT pulse, 1 µs, in CLK periods (R97). -/
def commitPulsePeriods : Nat := 25

/-- The flywheel count at which the next missing sync is a frame loss (R130). -/
def flywheelLimit : Byte := 3#8

/-- The longest argument of a command frame (R160). -/
def maxArgumentLength : Nat := 64

end Sys2Proof.Config
end

