-- ==== Sys2Proof/Syntax.lean ====
section
/-! DEFINITION. The commands of the part: the named values of chapter 10.4, the notices of R169, and Instr, the one
inductive with a constructor for each row of spec/opcode_table.json. A command of a port carries the port, the
frame's tag and its argument fields as the bytes of R178, so that a field out of its range is a command too. -/

namespace Sys2Proof

/-- The device mode (R140). -/
inductive Mode where
  | config
  | starting
  | running
  | stopping
  | fault
  deriving DecidableEq, Repr

/-- The state of a group (R23, R26). -/
inductive GroupState where
  | idle
  | staging
  | sealed
  deriving DecidableEq, Repr

/-- A port's subscription to a group (R102). -/
inductive Subscription where
  | none
  | observe
  | ackAll
  | ackMarked
  | lapsed
  deriving DecidableEq, Repr

/-- The session state of a port (R158). -/
inductive SessionState where
  | offline
  | online
  deriving DecidableEq, Repr

/-- Where frame boundaries come from (R122). -/
inductive FrameSource where
  | internal
  | external
  deriving DecidableEq, Repr

/-- The status of a response (10.4). -/
inductive Status where
  | ok
  | queued
  | clamped
  | badFrame
  | unknown
  | argument
  | offline
  | mode
  | noLease
  | busy
  | range
  | denied
  | noEntry
  | already
  | notOwed
  | stale
  | late
  | full
  | invalid
  | noClaim
  deriving DecidableEq, Repr

/-- The reason of a BADFRAME response (R161). -/
inductive BadFrameReason where
  | short
  | length
  | crc
  deriving DecidableEq, Repr

/-- The event that freed a lease, in LEASE_GRANTED (R46). -/
inductive FreeingEvent where
  | release
  | patience
  | leave
  deriving DecidableEq, Repr

/-- The reason of LEASE_LOST (R47) and the cause of DISCARDED (R73). -/
inductive LossCause where
  | patience
  | stop
  deriving DecidableEq, Repr

/-- The reason of DEFERRED (R85). -/
inductive HoldReason where
  | acks
  | partner
  deriving DecidableEq, Repr

/-- A notice as a block sends it (R169), less the frame number, which every notice takes from the frame in force when
it is queued (R137). OVERFLOW is not among them: the port unit makes it (R170). -/
inductive Notice where
  | committed (group : GroupId) (epoch : Half) (marked ackRequired : Bool)
  | leaseGranted (group : GroupId) (event : FreeingEvent)
  | leaseLost (group : GroupId) (reason : LossCause) (wasWaiting : Bool)
  | discarded (group : GroupId) (cause : LossCause) (wasSealed : Bool)
  | deferred (group : GroupId) (count : Byte) (reason : HoldReason)
  | lapsed (group : GroupId) (epoch : Half) (othersLapsed : Bool) (count : Byte)
  | frameSubstitute (count : Byte)
  | modeChange (new old : Mode)
  deriving DecidableEq, Repr

/-- The commands that a frame can name (R178). -/
inductive Command where
  | nop
  | status
  | join
  | leave
  | fetch
  | claimConfig
  | releaseConfig
  | start
  | stop
  | resume
  | resetDevice
  | defineEntry
  | defineFan
  | deleteEntry
  | defineGroup
  | defineBundle
  | setFrame
  | read
  | readSet
  | groupStatus
  | lease
  | release
  | stage
  | unstage
  | seal
  | unseal
  | readStaged
  | subscribe
  | ack
  deriving DecidableEq, Repr

/-- The rows of spec/opcode_table.json. The first 29 are taken when a transaction ends on a port; BADFRAME and
PURE_READ are the other ends of a transaction, CS_FALLS its beginning; the rest are happenings of the part's blocks
and pins, each whole and indivisible (95_what_each_step_holds.md). -/
inductive Instr where
  | nop (p : Port) (tag : Byte)
  | status (p : Port) (tag : Byte)
  | join (p : Port) (tag attention : Byte)
  | leave (p : Port) (tag : Byte)
  | fetch (p : Port) (tag n : Byte)
  | claimConfig (p : Port) (tag : Byte)
  | releaseConfig (p : Port) (tag : Byte)
  | start (p : Port) (tag : Byte)
  | stop (p : Port) (tag : Byte)
  | resume (p : Port) (tag : Byte)
  | resetDevice (p : Port) (tag : Byte)
  /-- `words` are the argument bytes after the limits code, taken four at a time: min and max if the code names
  limits, then the initial value (R179). -/
  | defineEntry (p : Port) (tag index group width writers limits : Byte) (words : List Word)
  | defineFan (p : Port) (tag index group writers : Byte) (targets : List Byte)
  | deleteEntry (p : Port) (tag index : Byte)
  | defineGroup (p : Port) (tag group staleLimit ackDeadline patienceLimit : Byte)
  | defineBundle (p : Port) (tag bundle : Byte) (members : List Byte)
  | setFrame (p : Port) (tag source : Byte) (period : Word)
  | read (p : Port) (tag index : Byte)
  | readSet (p : Port) (tag : Byte) (indices : List Byte)
  | groupStatus (p : Port) (tag group : Byte)
  | lease (p : Port) (tag group : Byte)
  | release (p : Port) (tag group : Byte)
  | stage (p : Port) (tag index : Byte) (words : List Word)
  | unstage (p : Port) (tag index : Byte)
  | seal (p : Port) (tag group delay marked : Byte)
  | unseal (p : Port) (tag group : Byte)
  | readStaged (p : Port) (tag index : Byte)
  | subscribe (p : Port) (tag group mode : Byte)
  | ack (p : Port) (tag group : Byte) (epoch : Half)
  /-- The bytes that arrived on MOSI, leading fill included (R159). -/
  | badframe (p : Port) (mosi : List Byte)
  | pureRead (p : Port)
  /-- `time` is the CLK period in which the edge is seen (R124). -/
  | fsyncEdge (time : Nat)
  | internalTimer
  | windowExpiry
  | frameLoss
  | boundaryTaken
  | enterFirst
  | enterStopped
  | opening
  | groupEvaluation (g : GroupId)
  | bundleEvaluation (b : BundleId)
  | closing
  | commitPulseEnd
  | patienceStep (g : GroupId)
  | ackStep (g : GroupId)
  | noticeArrival (p : Port) (notice : Notice)
  | resetAssert
  | resetRelease
  | powerUp
  | csFalls (p : Port)
  deriving DecidableEq, Repr

end Sys2Proof
end

