-- ==== Sys2Proof/WellFormed.lean ====
section
/-! DEFINITION. Which terms of Instr name a happening of the part: the argument lists have a length that check 7 of
R161 accepts, a bad frame has a frame byte, and a notice has counts in the ranges of R169 and R184. The meanings
are total: they answer for an ill-formed term too. -/

namespace Sys2Proof

/-- The counts a notice may carry: a deferral count from 1 (R84, R85), a lapse count of 1 to 4 (R115), a flywheel
count of 1 to 3 (R131), and two different modes (R142). -/
def Notice.wf : Notice → Bool
  | .deferred _ count _ => count != 0#8
  | .lapsed _ _ _ count => decide (1 ≤ count.toNat ∧ count.toNat ≤ 4)
  | .frameSubstitute count => decide (1 ≤ count.toNat ∧ count.toNat ≤ 3)
  | .modeChange new old => new != old
  | _ => true

/-- The terms whose lists and counts a frame or a block can carry (R159, R161, R178). -/
def Instr.wf : Instr → Bool
  | .defineEntry _ _ _ _ _ _ _ words => decide (1 ≤ words.length ∧ words.length ≤ 6)
  | .defineFan _ _ _ _ _ targets => decide (targets.length ≤ 4)
  | .defineBundle _ _ _ members => decide (members.length ≤ 16)
  | .readSet _ _ indices => decide (1 ≤ indices.length ∧ indices.length ≤ 8)
  | .stage _ _ _ words => decide (1 ≤ words.length ∧ words.length ≤ 4)
  | .badframe _ mosi => mosi.any (· != 0#8)
  | .noticeArrival _ n => n.wf
  | _ => true

end Sys2Proof
end

