-- ==== Sys2Proof/Decode.lean ====
section
/-! DEFINITION. Command frames as bytes: the CRC-8 (R177), the frame bytes of a transaction (R159, R160), the seven
checks of the port unit (R161), the argument layouts (R178, R179), the command that a frame names, and the frame of a
command. Total on any bytes; what fails is rejected by name. decodeTableWord answers none: no row of
spec/opcode_table.json gives bits. -/

namespace Sys2Proof

/-! ### The CRC-8 of R177 -/

/-- One data bit: the register is shifted left, and combined with 2Fh if its top bit and the data bit differ (R177). -/
def crcBit (register : Byte) (bit : Bool) : Byte :=
  if register.msb = bit then register <<< 1 else (register <<< 1) ^^^ 0x2F#8

/-- One byte, from its most significant bit down (R177). -/
def crcByte (register byte : Byte) : Byte :=
  [7, 6, 5, 4, 3, 2, 1, 0].foldl (fun r i => crcBit r (byte.getLsbD i)) register

/-- The CRC-8 of a run of bytes; the register starts at FFh and there is no final inversion (R177). -/
def crc8 (bytes : List Byte) : Byte := bytes.foldl crcByte 0xFF#8

/-! ### Numbers of more than one byte, most significant byte first (R176) -/

def halfBytes (h : Half) : List Byte := [h.extractLsb' 8 8, h.extractLsb' 0 8]

def wordBytes (w : Word) : List Byte :=
  [w.extractLsb' 24 8, w.extractLsb' 16 8, w.extractLsb' 8 8, w.extractLsb' 0 8]

def halfOfBytes (hi lo : Byte) : Half := hi ++ lo

def wordOfBytes (a b c d : Byte) : Word := a ++ b ++ c ++ d

/-- The bytes of a list of words, word after word. -/
def wordsBytes : List Word → List Byte
  | [] => []
  | w :: rest => wordBytes w ++ wordsBytes rest

/-- Bytes taken four at a time as words (R179); none if some are left over. -/
def wordsOfBytes : List Byte → Option (List Word)
  | [] => some []
  | a :: b :: c :: d :: rest => (wordsOfBytes rest).map (wordOfBytes a b c d :: ·)
  | _ => none

/-! ### Command codes and argument lengths (R178) -/

def Command.code : Command → Byte
  | .nop => 0x01#8
  | .status => 0x02#8
  | .join => 0x03#8
  | .leave => 0x04#8
  | .fetch => 0x05#8
  | .claimConfig => 0x10#8
  | .releaseConfig => 0x11#8
  | .start => 0x12#8
  | .stop => 0x13#8
  | .resume => 0x14#8
  | .resetDevice => 0x15#8
  | .defineEntry => 0x20#8
  | .defineFan => 0x21#8
  | .deleteEntry => 0x22#8
  | .defineGroup => 0x23#8
  | .defineBundle => 0x24#8
  | .setFrame => 0x25#8
  | .read => 0x30#8
  | .readSet => 0x31#8
  | .groupStatus => 0x32#8
  | .lease => 0x40#8
  | .release => 0x41#8
  | .stage => 0x42#8
  | .unstage => 0x43#8
  | .seal => 0x44#8
  | .unseal => 0x45#8
  | .readStaged => 0x46#8
  | .subscribe => 0x50#8
  | .ack => 0x51#8

def allCommands : List Command :=
  [.nop, .status, .join, .leave, .fetch, .claimConfig, .releaseConfig, .start, .stop, .resume, .resetDevice,
   .defineEntry, .defineFan, .deleteEntry, .defineGroup, .defineBundle, .setFrame, .read, .readSet, .groupStatus,
   .lease, .release, .stage, .unstage, .seal, .unseal, .readStaged, .subscribe, .ack]

/-- The command that a code names; none is UNKNOWN (R161 check 5, R178). -/
def commandOfCode (code : Byte) : Option Command := allCommands.find? (fun c => c.code == code)

/-- The argument lengths that check 7 of R161 accepts (R178, last column). -/
def Command.accepts (c : Command) (L : Nat) : Bool :=
  match c with
  | .join | .fetch | .deleteEntry | .read | .groupStatus | .lease | .release | .unstage | .unseal | .readStaged => L == 1
  | .subscribe => L == 2
  | .seal | .ack => L == 3
  | .defineGroup => L == 4
  | .setFrame => L == 5
  | .defineEntry => [9, 13, 17, 21, 25, 29].contains L
  | .defineFan => decide (3 ≤ L ∧ L ≤ 7)
  | .defineBundle => decide (1 ≤ L ∧ L ≤ 17)
  | .readSet => decide (1 ≤ L ∧ L ≤ 8)
  | .stage => [5, 9, 13, 17].contains L
  | .nop | .status | .leave | .claimConfig | .releaseConfig | .start | .stop | .resume | .resetDevice => L == 0

/-- The commands that an OFFLINE port takes (R161 check 6, R166). -/
def Command.openToOffline : Command → Bool
  | .join | .status | .nop => true
  | _ => false

/-! ### The checks of the port unit (R161, R162) -/

/-- Why a frame is refused by the port unit, with what its response carries (R162). -/
inductive RejectCause where
  | badFrame (reason : BadFrameReason) (received : Nat)
  | unknown (code : Byte)
  | offline (c : Command)
  | argument (c : Command)
  deriving DecidableEq, Repr

/-- A command frame that passed the seven checks. -/
structure Frame where
  command : Command
  tag : Byte
  args : List Byte
  deriving DecidableEq, Repr

/-- The outcome of the checks of R161. -/
inductive FrameVerdict where
  | rejected (tag : Byte) (cause : RejectCause)
  | accepted (f : Frame)
  deriving DecidableEq, Repr

/-- The frame bytes of a transaction: what arrived on MOSI from the first byte that is not 00h (R159). -/
def frameBytes (mosi : List Byte) : List Byte := mosi.dropWhile (· == 0#8)

/-- Checks 5, 6 and 7 of R161, on a frame whose CRC matches. -/
def checkCommand (online : Bool) (code tag : Byte) (args : List Byte) : FrameVerdict :=
  match commandOfCode code with
  | none => .rejected tag (.unknown code)
  | some c =>
    if !online && !c.openToOffline then .rejected tag (.offline c)
    else if !c.accepts args.length then .rejected tag (.argument c)
    else .accepted ⟨c, tag, args⟩

/-- The seven checks of R161, in order. Bytes beyond the complete frame are ignored (R160). A BADFRAME response has the
frame's tag if at least 2 frame bytes were received, and tag 0 otherwise (R162). -/
def checkFrame (online : Bool) (bytes : List Byte) : FrameVerdict :=
  match bytes with
  | code :: tag :: length :: rest =>
    let L := length.toNat
    if Config.maxArgumentLength < L then .rejected tag (.badFrame .length bytes.length)
    else if rest.length < L + 1 then .rejected tag (.badFrame .short bytes.length)
    else if crc8 (code :: tag :: length :: rest.take L) ≠ rest.getD L 0#8 then
      .rejected tag (.badFrame .crc bytes.length)
    else checkCommand online code tag (rest.take L)
  | _ => .rejected (bytes.getD 1 0#8) (.badFrame .short bytes.length)

/-! ### Arguments (R178, R179) -/

/-- The command that an accepted frame names, with its arguments read in the layout of R178. -/
def decodeArgs (p : Port) (f : Frame) : Option Instr :=
  let t := f.tag
  match f.command, f.args with
  | .nop, [] => some (.nop p t)
  | .status, [] => some (.status p t)
  | .join, [attention] => some (.join p t attention)
  | .leave, [] => some (.leave p t)
  | .fetch, [n] => some (.fetch p t n)
  | .claimConfig, [] => some (.claimConfig p t)
  | .releaseConfig, [] => some (.releaseConfig p t)
  | .start, [] => some (.start p t)
  | .stop, [] => some (.stop p t)
  | .resume, [] => some (.resume p t)
  | .resetDevice, [] => some (.resetDevice p t)
  | .defineEntry, index :: group :: width :: writers :: limits :: rest =>
    (wordsOfBytes rest).map (.defineEntry p t index group width writers limits ·)
  | .defineFan, index :: group :: writers :: targets => some (.defineFan p t index group writers targets)
  | .deleteEntry, [index] => some (.deleteEntry p t index)
  | .defineGroup, [group, staleLimit, ackDeadline, patienceLimit] =>
    some (.defineGroup p t group staleLimit ackDeadline patienceLimit)
  | .defineBundle, bundle :: members => some (.defineBundle p t bundle members)
  | .setFrame, [source, a, b, c, d] => some (.setFrame p t source (wordOfBytes a b c d))
  | .read, [index] => some (.read p t index)
  | .readSet, indices => some (.readSet p t indices)
  | .groupStatus, [group] => some (.groupStatus p t group)
  | .lease, [group] => some (.lease p t group)
  | .release, [group] => some (.release p t group)
  | .stage, index :: rest => (wordsOfBytes rest).map (.stage p t index ·)
  | .unstage, [index] => some (.unstage p t index)
  | .seal, [group, delay, marked] => some (.seal p t group delay marked)
  | .unseal, [group] => some (.unseal p t group)
  | .readStaged, [index] => some (.readStaged p t index)
  | .subscribe, [group, mode] => some (.subscribe p t group mode)
  | .ack, [group, hi, lo] => some (.ack p t group (halfOfBytes hi lo))
  | _, _ => none

/-- The command that the bytes of a transaction on a port name, with the port's session state; none for a pure read and
for a frame the port unit rejects (R160, R161). -/
def decodeFrame (p : Port) (online : Bool) (mosi : List Byte) : Option Instr :=
  match checkFrame online (frameBytes mosi) with
  | .accepted f => decodeArgs p f
  | .rejected _ _ => none

/-- The port, the command, the tag and the argument bytes of a command that travels in a frame (R178). -/
def Instr.parts : Instr → Option (Port × Command × Byte × List Byte)
  | .nop p t => some (p, .nop, t, [])
  | .status p t => some (p, .status, t, [])
  | .join p t attention => some (p, .join, t, [attention])
  | .leave p t => some (p, .leave, t, [])
  | .fetch p t n => some (p, .fetch, t, [n])
  | .claimConfig p t => some (p, .claimConfig, t, [])
  | .releaseConfig p t => some (p, .releaseConfig, t, [])
  | .start p t => some (p, .start, t, [])
  | .stop p t => some (p, .stop, t, [])
  | .resume p t => some (p, .resume, t, [])
  | .resetDevice p t => some (p, .resetDevice, t, [])
  | .defineEntry p t index group width writers limits words =>
    some (p, .defineEntry, t, index :: group :: width :: writers :: limits :: wordsBytes words)
  | .defineFan p t index group writers targets => some (p, .defineFan, t, index :: group :: writers :: targets)
  | .deleteEntry p t index => some (p, .deleteEntry, t, [index])
  | .defineGroup p t group staleLimit ackDeadline patienceLimit =>
    some (p, .defineGroup, t, [group, staleLimit, ackDeadline, patienceLimit])
  | .defineBundle p t bundle members => some (p, .defineBundle, t, bundle :: members)
  | .setFrame p t source period => some (p, .setFrame, t, source :: wordBytes period)
  | .read p t index => some (p, .read, t, [index])
  | .readSet p t indices => some (p, .readSet, t, indices)
  | .groupStatus p t group => some (p, .groupStatus, t, [group])
  | .lease p t group => some (p, .lease, t, [group])
  | .release p t group => some (p, .release, t, [group])
  | .stage p t index words => some (p, .stage, t, index :: wordsBytes words)
  | .unstage p t index => some (p, .unstage, t, [index])
  | .seal p t group delay marked => some (p, .seal, t, [group, delay, marked])
  | .unseal p t group => some (p, .unseal, t, [group])
  | .readStaged p t index => some (p, .readStaged, t, [index])
  | .subscribe p t group mode => some (p, .subscribe, t, [group, mode])
  | .ack p t group epoch => some (p, .ack, t, group :: halfBytes epoch)
  | .badframe _ _ | .pureRead _ | .fsyncEdge _ | .internalTimer | .windowExpiry | .frameLoss | .boundaryTaken
  | .enterFirst | .enterStopped | .opening | .groupEvaluation _ | .bundleEvaluation _ | .closing | .commitPulseEnd
  | .patienceStep _ | .ackStep _ | .noticeArrival _ _ | .resetAssert | .resetRelease | .powerUp | .csFalls _ => none

/-- A frame: code, tag, argument length, arguments and the CRC-8 over them (R160). -/
def buildFrame (c : Command) (tag : Byte) (args : List Byte) : List Byte :=
  let body := c.code :: tag :: BitVec.ofNat 8 args.length :: args
  body ++ [crc8 body]

/-- The frame of a command; none for a row that is no command of a port. -/
def encodeFrame (i : Instr) : Option (List Byte) :=
  match i.parts with
  | some (_, c, t, args) => some (buildFrame c t args)
  | none => none

/-- The command that a table word spells. No row of spec/opcode_table.json gives bits, so no word spells one. -/
def decodeTableWord (_nbits _w : Nat) : Option Instr := none

end Sys2Proof
end

