-- ==== Sys2Proof/Machine/State.lean ====
section
/-! DEFINITION. The state of the part: the fields that R1, R3, R23, R78, R122, R140 and R158 give its six blocks, the
level of RESET#, the work in flight between the blocks (R125, R126, R79), the model's own clock and queue of waiting
commands, and the state after device reset (R156). Plain data, with one home for every field. -/

namespace Sys2Proof.Machine

open Sys2Proof

/-! ### The parameter table (R1) -/

/-- How a limited word is read (R5). -/
inductive LimitKind where
  | unsigned
  | signed
  deriving DecidableEq, Repr

/-- What happens to a staged word outside its limits (R5). -/
inductive LimitPolicy where
  | refuse
  | clamp
  deriving DecidableEq, Repr

structure Limits where
  kind : LimitKind
  min : Word
  max : Word
  policy : LimitPolicy
  deriving DecidableEq, Repr

/-- A VALUE entry (R1). Its store words are `active`, its shadow words `staged`; where the table places them is not
visible at any port (R3). -/
structure ValueEntry where
  group : GroupId
  width : Nat
  active : List Word
  staged : Option (List Word)
  epoch : Half
  writers : PortSet
  limits : Option Limits
  deriving DecidableEq, Repr

/-- A FAN entry (R1): it has no value, staged value, entry epoch or limits of its own. -/
structure FanEntry where
  group : GroupId
  writers : PortSet
  targets : List Byte
  deriving DecidableEq, Repr

/-- A defined entry (R1). An undefined index holds nothing. -/
inductive Entry where
  | value (v : ValueEntry)
  | fan (f : FanEntry)
  deriving DecidableEq, Repr

/-! ### Group control (R23) -/

structure Group where
  state : GroupState
  epoch : Half
  lastCommitFrame : Option Half
  lastSealer : Option Port
  lessee : Option Port
  waitQueue : List Port
  patience : Byte
  sealer : Option Port
  marked : Bool
  countdown : Byte
  deferrals : Byte
  staleReported : Bool
  subscriptions : PerPort Subscription
  outstanding : PortSet
  ackAge : Byte
  staleLimit : Byte
  ackDeadline : Byte
  patienceLimit : Byte
  deriving DecidableEq, Repr

/-- A group record after device reset (R23, R35). -/
def Group.reset : Group where
  state := .idle
  epoch := 0#16
  lastCommitFrame := none
  lastSealer := none
  lessee := none
  waitQueue := []
  patience := 0#8
  sealer := none
  marked := false
  countdown := 0#8
  deferrals := 0#8
  staleReported := false
  subscriptions := PerPort.fill .none
  outstanding := PortSet.none
  ackAge := 0#8
  staleLimit := 8#8
  ackDeadline := 0#8
  patienceLimit := 0#8

/-! ### Frame timing (R122) -/

inductive TimingState where
  | stopped
  | first
  | tracking
  | lost
  deriving DecidableEq, Repr

/-- Times are in CLK periods (R124). `timer` is the time at which the running internal timer expires (R126, R128). -/
structure Timing where
  source : FrameSource
  period : Word
  state : TimingState
  lastBoundary : Option Nat
  timer : Option Nat
  flywheel : Byte
  earlySync : Half
  frameNumber : Half
  resumeArmed : Bool
  deriving DecidableEq, Repr

/-- Frame timing after device reset (R122, R138). -/
def Timing.reset : Timing where
  source := .internal
  period := Config.resetPeriod
  state := .stopped
  lastBoundary := none
  timer := none
  flywheel := 0#8
  earlySync := 0#16
  frameNumber := 0#16
  resumeArmed := false

/-! ### Port units (R158) -/

/-- A response as the port unit holds it (R163); R180 writes it as bytes. -/
structure Response where
  tag : Byte
  status : Status
  data : List Byte
  deriving DecidableEq, Repr

/-- The reset response (R164). -/
def Response.reset : Response := ⟨0#8, .ok, []⟩

/-- A notice in a queue, with the frame number in force when it was queued (R137), or the OVERFLOW that the port unit
made (R170). -/
inductive QueuedNotice where
  | notice (n : Notice) (frame : Half)
  | overflow (count : Byte) (frame : Half)
  deriving DecidableEq, Repr

/-- Whether CS# is low and what the transaction shifts out: the response held when CS# fell (R159), or nothing that is
a response, because a reset took effect during it or it began while the part was held in reset (R156, R157). -/
inductive Transaction where
  | idle
  | shifting (response : Response)
  | lost
  deriving DecidableEq, Repr

structure PortUnit where
  session : SessionState
  sessionNumber : Byte
  attention : Bool
  response : Response
  queue : List QueuedNotice
  transaction : Transaction
  deriving DecidableEq, Repr

/-- A port unit after device reset, with CS# high (R158). -/
def PortUnit.reset : PortUnit where
  session := .offline
  sessionNumber := 0#8
  attention := false
  response := .reset
  queue := []
  transaction := .idle

/-! ### Work in flight between the blocks -/

/-- The kind that mode control gives a boundary it hands on (R125). -/
inductive BoundaryKind where
  | start
  | run
  | resume
  | stop
  deriving DecidableEq, Repr

/-- A boundary that mode control has handed to the commit unit and to group control and that they have not finished
(R79, R29). The commit unit's part: whether it has made the opening and the closing, and the evaluations it has still
to make. Group control's part: the groups whose patience step and whose ack step are still to be taken. `committed`
holds the groups that have committed at this boundary or, while it is still in flight, at a later one. `void` says that a STOP or an entry to CONFIG has come since: what the
boundary still owes then does nothing when it is taken (R29, R80, R150; log entry 17). -/
structure BoundaryWork where
  kind : BoundaryKind
  frame : Half
  void : Bool
  opened : Bool
  closed : Bool
  groupEvals : GroupSet
  bundleEvals : BundleSet
  committed : GroupSet
  patienceSteps : GroupSet
  ackSteps : GroupSet
  deriving DecidableEq, Repr

/-- What frame timing has reported and mode control has not yet taken (R125, R133). -/
inductive TimingReport where
  | boundary (frame : Half)
  | frameLoss
  deriving DecidableEq, Repr

/-- What mode control has told frame timing and the unit has not yet taken (R126, R136). A START names the moment at
which it was taken, from which the internal timer runs. -/
inductive ModeMessage where
  | start (takenAt : Nat)
  | enterConfig
  deriving DecidableEq, Repr

/-! ### The whole part -/

structure State where
  mode : Mode
  claim : Option Port
  entries : Vector (Option Entry) 256
  freeWords : Nat
  groups : Vector Group 16
  bundles : Vector GroupSet 4
  committedLast : GroupSet
  /-- The time at which the COMMIT pulse in progress ends; none while COMMIT is low (R97). -/
  commitPulse : Option Nat
  timing : Timing
  ports : PerPort PortUnit
  /-- RESET# is low, so the part is held in reset (R156). -/
  resetLow : Bool
  boundaries : List BoundaryWork
  toMode : List TimingReport
  toTiming : List ModeMessage
  /-- The model's own: the present time in CLK periods, as far as the events so far have told it. -/
  now : Nat
  /-- The model's own: the commands that wait, first in, first out. -/
  pending : List Instr
  deriving DecidableEq, Repr

/-- Why a step stops. No happening of the part stops it (every check that fails has a response, every event that finds
nothing to act on changes nothing), so there is no constructor and no step faults. Safe: nothing is left out by it. -/
inductive Fault where
  deriving DecidableEq, Repr

/-- Why a command has no meaning. -/
inductive Refusal where
  /-- Raised only by an arm of exec whose instruction has no meaning yet; no arm is in that case. Safe: the model stops
  where the part goes on. -/
  | notModelled (mnemonic : String)
  deriving DecidableEq, Repr

/-- The part after device reset, every CS# and RESET# high, no command waiting (R156). -/
def State.reset : State where
  mode := .config
  claim := none
  entries := Vector.replicate 256 none
  freeWords := Config.storeWords
  groups := Vector.replicate 16 Group.reset
  bundles := Vector.replicate 4 0#16
  committedLast := 0#16
  commitPulse := none
  timing := .reset
  ports := PerPort.fill .reset
  resetLow := false
  boundaries := []
  toMode := []
  toTiming := []
  now := 0
  pending := []

end Sys2Proof.Machine
end

