-- ==== Sys2Proof/Machine/Operands.lean ====
section
/-! DEFINITION. Every operand form: how a byte of an argument is read as a group, a flag, a writer set, limits, a
subscription mode or a source, and how a field is written in response data and notices (R176, 10.4). Sets of groups
and bundles as bits (R176). A word against limits (R5). -/

namespace Sys2Proof.Machine

open Sys2Proof

/-! ### Sets of groups and bundles -/

/-- Whether a number is in a set (bit n stands for n, R176). -/
def inSet {n : Nat} (set : BitVec n) (i : Fin n) : Bool := set.getLsbD i.val

/-- The set with a number put in. -/
def addTo {n : Nat} (set : BitVec n) (i : Fin n) : BitVec n := set ||| BitVec.twoPow n i.val

/-- The set with a number taken out. -/
def dropFrom {n : Nat} (set : BitVec n) (i : Fin n) : BitVec n := set &&& ~~~ (BitVec.twoPow n i.val)

/-- The set of the groups of a list. -/
def groupSetOf (groups : List GroupId) : GroupSet := groups.foldl addTo 0#16

/-- G0 to G15, in order. -/
def allGroups : List GroupId := [0, 1, 2, 3, 4, 5, 6, 7, 8, 9, 10, 11, 12, 13, 14, 15]

/-- B0 to B3, in order. -/
def allBundles : List BundleId := [0, 1, 2, 3]

/-! ### Sets of ports -/

/-- How many ports are in a set. -/
def portCount (set : PortSet) : Nat := Port.all.countP (fun p => set.get p)

/-- A set of ports as a byte: bit 0 P0 to bit 3 P3, bits 4 to 7 zero (R176). -/
def portSetByte (set : PortSet) : Byte :=
  0#4 ++ BitVec.ofBool set.p3 ++ BitVec.ofBool set.p2 ++ BitVec.ofBool set.p1 ++ BitVec.ofBool set.p0

/-! ### Fields of response data and notices (R176) -/

def flagByte (b : Bool) : Byte := if b then 1#8 else 0#8

def portByte : Port → Byte
  | .p0 => 0#8
  | .p1 => 1#8
  | .p2 => 2#8
  | .p3 => 3#8

/-- A port, or FFh if absent (R176). -/
def optionalPort : Option Port → Byte
  | none => 0xFF#8
  | some p => portByte p

def groupByte (g : GroupId) : Byte := BitVec.ofNat 8 g.val

/-- A bundle, or FFh if absent (R176). -/
def optionalBundle : Option BundleId → Byte
  | none => 0xFF#8
  | some b => BitVec.ofNat 8 b.val

/-- A presence flag, then the number; 0000h when absent (R176). -/
def optionalFrame : Option Half → List Byte
  | none => [0#8, 0#8, 0#8]
  | some f => 1#8 :: halfBytes f

/-- A free count, an entry count or a staged count, in two bytes (R176). -/
def countBytes (n : Nat) : List Byte := halfBytes (BitVec.ofNat 16 n)

/-- Any other count, in one byte (R176). -/
def countByte (n : Nat) : Byte := BitVec.ofNat 8 n

/-! ### Named values (10.4) -/

def modeCode : Mode → Byte
  | .config => 0x00#8
  | .starting => 0x01#8
  | .running => 0x02#8
  | .stopping => 0x03#8
  | .fault => 0x04#8

def groupStateCode : GroupState → Byte
  | .idle => 0x00#8
  | .staging => 0x01#8
  | .sealed => 0x02#8

def subscriptionCode : Subscription → Byte
  | .none => 0x00#8
  | .observe => 0x01#8
  | .ackAll => 0x02#8
  | .ackMarked => 0x03#8
  | .lapsed => 0x04#8

def sessionCode : SessionState → Byte
  | .offline => 0x00#8
  | .online => 0x01#8

def sourceCode : FrameSource → Byte
  | .internal => 0x00#8
  | .external => 0x01#8

def badFrameCode : BadFrameReason → Byte
  | .short => 0x01#8
  | .length => 0x02#8
  | .crc => 0x03#8

def freeingCode : FreeingEvent → Byte
  | .release => 0x01#8
  | .patience => 0x02#8
  | .leave => 0x03#8

def lossCode : LossCause → Byte
  | .patience => 0x02#8
  | .stop => 0x04#8

def holdCode : HoldReason → Byte
  | .acks => 0x05#8
  | .partner => 0x06#8

/-- The notice reason SUBSTITUTE (10.4). -/
def substituteCode : Byte := 0x07#8

/-! ### Notices as records of 8 bytes (R184) -/

/-- A notice record: kind, group, epoch, frame number, detail A, detail B (R184). -/
def record (kind group : Byte) (epoch frame : Half) (detailA detailB : Byte) : List Byte :=
  [kind, group] ++ halfBytes epoch ++ halfBytes frame ++ [detailA, detailB]

def noticeRecord (n : Notice) (frame : Half) : List Byte :=
  match n with
  | .committed g e marked ackRequired => record 0x01#8 (groupByte g) e frame (flagByte marked) (flagByte ackRequired)
  | .leaseGranted g event => record 0x02#8 (groupByte g) 0#16 frame (freeingCode event) 0#8
  | .leaseLost g reason wasWaiting => record 0x03#8 (groupByte g) 0#16 frame (lossCode reason) (flagByte wasWaiting)
  | .discarded g cause wasSealed => record 0x04#8 (groupByte g) 0#16 frame (lossCode cause) (flagByte wasSealed)
  | .deferred g count reason => record 0x05#8 (groupByte g) 0#16 frame count (holdCode reason)
  | .lapsed g e othersLapsed count => record 0x06#8 (groupByte g) e frame (flagByte othersLapsed) count
  | .frameSubstitute count => record 0x07#8 0xFF#8 0#16 frame substituteCode count
  | .modeChange new old => record 0x08#8 0xFF#8 0#16 frame (modeCode new) (modeCode old)

def queuedRecord : QueuedNotice → List Byte
  | .notice n frame => noticeRecord n frame
  | .overflow count frame => record 0x09#8 0xFF#8 0#16 frame count 0#8

/-! ### Argument bytes read -/

/-- A group byte: G0 to G15; above 0Fh it is a group number greater than 15 (R176). -/
def groupOf (b : Byte) : Option GroupId :=
  if h : b.toNat < 16 then some ⟨b.toNat, h⟩ else none

/-- A bundle byte: B0 to B3; above 3 it is out of range (R87). -/
def bundleOf (b : Byte) : Option BundleId :=
  if h : b.toNat < 4 then some ⟨b.toNat, h⟩ else none

/-- A yes/no flag: 00h no, 01h yes, any other code out of range (R176). -/
def flagOf (b : Byte) : Option Bool :=
  if b = 0#8 then some false else if b = 1#8 then some true else none

/-- A writer-set byte: 00h to 0Fh is the set, FFh is "absent", which stands for all four ports (R6, R176). -/
def writersOf (b : Byte) : Option PortSet :=
  if b = 0xFF#8 then some PortSet.every
  else if b.toNat < 16 then some ⟨b.getLsbD 0, b.getLsbD 1, b.getLsbD 2, b.getLsbD 3⟩
  else none

/-- The subscription modes a port may choose; LAPSED is not one (R103). -/
def chosenSubscription (b : Byte) : Option Subscription :=
  if b = 0x00#8 then some .none
  else if b = 0x01#8 then some .observe
  else if b = 0x02#8 then some .ackAll
  else if b = 0x03#8 then some .ackMarked
  else none

def sourceOf (b : Byte) : Option FrameSource :=
  if b = 0x00#8 then some .internal else if b = 0x01#8 then some .external else none

/-- What a limits code says (R179): no limits, a kind with a policy, or a code out of range. -/
inductive LimitsCode where
  | absent
  | present (kind : LimitKind) (policy : LimitPolicy)
  | outOfRange
  deriving DecidableEq, Repr

def limitsCodeOf (b : Byte) : LimitsCode :=
  if b = 0x00#8 then .absent
  else if b = 0x01#8 then .present .unsigned .refuse
  else if b = 0x02#8 then .present .unsigned .clamp
  else if b = 0x03#8 then .present .signed .refuse
  else if b = 0x04#8 then .present .signed .clamp
  else .outOfRange

/-! ### Words against limits (R5) -/

/-- "Not greater than", the words read in the limits' kind (R5). -/
def LimitKind.le (k : LimitKind) (a b : Word) : Bool :=
  match k with
  | .unsigned => decide (a.toNat ≤ b.toNat)
  | .signed => decide (a.toInt ≤ b.toInt)

/-- A word is within the limits when it is not less than min and not greater than max (R5). -/
def Limits.within (l : Limits) (w : Word) : Bool := l.kind.le l.min w && l.kind.le w l.max

/-- What CLAMP stages: min for a word below, max for a word above, the word itself within (R5). -/
def Limits.clamp (l : Limits) (w : Word) : Word :=
  if !l.kind.le l.min w then l.min else if !l.kind.le w l.max then l.max else w

/-- The word staged for an offered word, or none if the limits refuse it with RANGE (R5). -/
def admitWord (limits : Option Limits) (w : Word) : Option Word :=
  match limits with
  | none => some w
  | some l =>
    if l.within w then some w
    else match l.policy with
      | .refuse => none
      | .clamp => some (l.clamp w)

end Sys2Proof.Machine
end

