-- ==== Sys2Proof/Machine/Flags.lean ====
section
/-! DEFINITION. Status codes (10.4), responses as bytes (R180), and what the pins show: ATTN# (R174), COMMIT (R97) and
the bytes on MISO (R159). The pins are computed from the state, so each fact has one home. -/

namespace Sys2Proof.Machine

open Sys2Proof

def statusCode : Status → Byte
  | .ok => 0x00#8
  | .queued => 0x01#8
  | .clamped => 0x02#8
  | .badFrame => 0x10#8
  | .unknown => 0x11#8
  | .argument => 0x12#8
  | .offline => 0x13#8
  | .mode => 0x14#8
  | .noLease => 0x15#8
  | .busy => 0x16#8
  | .range => 0x17#8
  | .denied => 0x18#8
  | .noEntry => 0x19#8
  | .already => 0x1A#8
  | .notOwed => 0x1B#8
  | .stale => 0x1C#8
  | .late => 0x1D#8
  | .full => 0x1E#8
  | .invalid => 0x1F#8
  | .noClaim => 0x20#8

/-- A response as bytes: tag, status, data length, data, CRC-8 (R180). -/
def responseBytes (r : Response) : List Byte :=
  let body := r.tag :: statusCode r.status :: countByte r.data.length :: r.data
  body ++ [crc8 body]

/-- ATTN# is asserted while the port is ONLINE, attention enable is yes and the queue holds a notice (R174). -/
def PortUnit.attn (u : PortUnit) : Bool := u.session == .online && u.attention && !u.queue.isEmpty

/-- The COMMIT line (R97). -/
def State.commitLine (s : State) : Bool := s.commitPulse.isSome

/-- Byte n that MISO carries in the transaction in progress: the response's bytes, then 00h (R159). None outside a
transaction, where MISO is in high impedance, and in a transaction that a reset lost, where what MISO carries is not a
response (R157). -/
def PortUnit.misoByte (u : PortUnit) (n : Nat) : Option Byte :=
  match u.transaction with
  | .shifting r => some ((responseBytes r).getD n 0#8)
  | .idle | .lost => none

/-! ### Counts and numbers that saturate or wrap -/

/-- A saturating count of 0 to 255 raised by one (R84, R112, R170). -/
def raiseByte (c : Byte) : Byte := if c = 0xFF#8 then c else c + 1#8

/-- The early-sync count raised by one, saturating at 65535 (R129). -/
def raiseHalf (c : Half) : Half := if c = 0xFFFF#16 then c else c + 1#16

/-- The epoch after an epoch: 0 is followed by 1, each later value by the next, and 65535 by 1 (R30). -/
def nextEpoch (e : Half) : Half := if e = 0xFFFF#16 then 1#16 else e + 1#16

/-- The session number after a number: 255 becomes 1 (R165). -/
def nextSession (n : Byte) : Byte := if n = 0xFF#8 then 1#8 else n + 1#8

/-- The frame number after a number: 65535 is followed by 0 (R137). -/
def nextFrame (n : Half) : Half := n + 1#16

/-- The due countdown lowered by one; 0 stays at 0 (R81). -/
def lowerByte (c : Byte) : Byte := if c = 0#8 then 0#8 else c - 1#8

end Sys2Proof.Machine
end

