-- ==== Sys2Proof/Machine/Ops.lean ====
section
/-! DEFINITION. The named operations that the meanings share: reading and writing the records, queueing notices (R170),
taking a command at the end of a transaction (R159 to R164), passing a lease on (R45), discarding a set (R72), the
teardown on entry to CONFIG (R153), the commit and the deferral of a group (R84, R85, R92 to R94), producing a boundary
(R125), the work of a boundary in flight (R79), and a device reset (R156, R157). -/

namespace Sys2Proof.Machine

open Sys2Proof

/-- What a step answers. -/
abbrev Result := Host.Outcome State Fault Refusal

/-! ### Reading and writing the records -/

def State.portUnit (s : State) (p : Port) : PortUnit := s.ports.get p

def State.setPort (s : State) (p : Port) (u : PortUnit) : State := { s with ports := s.ports.set p u }

def State.group (s : State) (g : GroupId) : Group := s.groups[g.val]

def State.setGroup (s : State) (g : GroupId) (r : Group) : State := { s with groups := s.groups.set g.val r }

def State.modifyGroup (s : State) (g : GroupId) (f : Group → Group) : State := s.setGroup g (f (s.group g))

/-- The entry of an index, none if the index is undefined (R1). -/
def State.entry (s : State) (i : Byte) : Option Entry := s.entries[i.toNat]'i.isLt

def State.setEntry (s : State) (i : Byte) (e : Option Entry) : State :=
  { s with entries := s.entries.set i.toNat e i.isLt }

/-- A function applied at every place of a vector. -/
def mapVector {α β : Type} {n : Nat} (f : α → β) (v : Vector α n) : Vector β n :=
  ⟨⟨v.toList.map f⟩, by simp⟩

/-- A function applied to every entry record, as one step. -/
def State.mapEntries (s : State) (f : Option Entry → Option Entry) : State :=
  { s with entries := mapVector f s.entries }

def State.bundle (s : State) (b : BundleId) : GroupSet := s.bundles[b.val]

def State.setBundle (s : State) (b : BundleId) (members : GroupSet) : State :=
  { s with bundles := s.bundles.set b.val members }

/-- The bundle that holds a group, if one does (R86). -/
def bundleHolding (s : State) (g : GroupId) : Option BundleId :=
  allBundles.find? (fun b => inSet (s.bundle b) g)

/-- The groups of a set, in increasing order (R90, R95). -/
def members (set : GroupSet) : List GroupId := allGroups.filter (fun g => inSet set g)

def State.isOnline (s : State) (p : Port) : Bool := (s.portUnit p).session == .online

/-! ### Entries -/

def Entry.group : Entry → GroupId
  | .value v => v.group
  | .fan f => f.group

/-- Whether a record is a defined entry of a group. -/
def belongsTo (g : GroupId) : Option Entry → Bool
  | some e => e.group == g
  | none => false

/-- Whether a record is a VALUE entry of a group that holds a staged value. -/
def stagedIn (g : GroupId) : Option Entry → Bool
  | some (.value v) => v.group == g && v.staged.isSome
  | _ => false

/-- The number of defined entries of a group, VALUE and FAN together (R38). -/
def entryCount (s : State) (g : GroupId) : Nat := s.entries.toList.countP (belongsTo g)

/-- The number of VALUE entries of a group that hold a staged value (R38). -/
def stagedCount (s : State) (g : GroupId) : Nat := s.entries.toList.countP (stagedIn g)

/-- The targets of a list as VALUE entries of width 1 of a group; none if one of them is anything else (R14). -/
def collectTargets (s : State) (g : GroupId) : List Byte → Option (List (Byte × ValueEntry))
  | [] => some []
  | i :: rest =>
    match s.entry i with
    | some (.value v) =>
      if v.width = 1 ∧ v.group = g then (collectTargets s g rest).map ((i, v) :: ·) else none
    | _ => none

/-- The targets of a FAN that is sound; none for a FAN that is not (R14). -/
def fanTargets (s : State) (f : FanEntry) : Option (List (Byte × ValueEntry)) := collectTargets s f.group f.targets

/-- Whether a record passes the soundness test: only a FAN can fail it (R14). -/
def soundEntry (s : State) : Option Entry → Bool
  | some (.fan f) => (fanTargets s f).isSome
  | _ => true

/-- A record with its staged value removed, its shadow words empty (R4). -/
def clearStaged : Option Entry → Option Entry
  | some (.value v) => some (.value { v with staged := none })
  | e => e

/-- A record as a discard of a group's set leaves it (R21). -/
def discardEntry (g : GroupId) (e : Option Entry) : Option Entry :=
  if belongsTo g e then clearStaged e else e

/-- A record with words written into its shadow words, replacing what was staged (R19). -/
def writeStaged (words : List Word) : Option Entry → Option Entry
  | some (.value v) => some (.value { v with staged := some words })
  | e => e

/-- A record as the commit of a group with a new epoch leaves it (R22). -/
def commitEntry (g : GroupId) (epoch : Half) : Option Entry → Option Entry
  | some (.value v) =>
    if v.group = g then
      match v.staged with
      | some words => some (.value { v with active := words, staged := none, epoch := epoch })
      | none => some (.value (if epoch = 1#16 ∧ v.epoch ≠ 0#16 then { v with epoch := 1#16 } else v))
    else some (.value v)
  | e => e

/-! ### Notices (R170, R171) -/

/-- The OVERFLOW notice at the tail counts one more dropped notice; its frame number is unchanged (R170). -/
def raiseTail : List QueuedNotice → List QueuedNotice
  | [] => []
  | [.overflow count frame] => [.overflow (raiseByte count) frame]
  | [.notice n frame] => [.notice n frame]
  | x :: y :: rest => x :: raiseTail (y :: rest)

/-- A notice taken by a port unit, by the number of notices its queue holds (R170). After a FETCH of 1 from a full queue 31 are
left, and R170 drops the arrival with a second OVERFLOW, where R173 has it appended after the first: DESIGN CHOICE R170, log
entry 19. -/
def enqueue (queue : List QueuedNotice) (n : Notice) (frame : Half) : List QueuedNotice :=
  if queue.length + 1 < Config.queueCapacity then queue ++ [.notice n frame]
  else if queue.length + 1 = Config.queueCapacity then queue ++ [.overflow 1#8 frame]
  else raiseTail queue

/-- A notice for a port, with the frame number in force (R137); to an OFFLINE port it is not queued (R171). -/
def State.notify (s : State) (p : Port) (n : Notice) : State :=
  if (s.portUnit p).session = .online then
    s.setPort p { s.portUnit p with queue := enqueue (s.portUnit p).queue n s.timing.frameNumber }
  else s

/-- A notice for a port that may be absent. -/
def State.notifyOptional (s : State) (p : Option Port) (n : Notice) : State :=
  match p with
  | some p => s.notify p n
  | none => s

/-- A notice for every port of a list that meets a test, in the order of the list. -/
def State.notifyEach (s : State) (ports : List Port) (n : Port → Notice) : State :=
  ports.foldl (fun s p => s.notify p (n p)) s

/-- MODE for every ONLINE port, in the order P0 to P3 (R142). -/
def State.notifyMode (s : State) (new old : Mode) : State := s.notifyEach Port.all (fun _ => .modeChange new old)

/-! ### Taking a command when a transaction ends (R159 to R164) -/

/-- What a block answers: the state after the command, the status and the data, and whether the response is placed in
the buffer (only that of an accepted RESET_DEVICE is not, R155). -/
structure Reply where
  state : State
  status : Status
  data : List Byte
  placed : Bool

/-- An answer that is placed in the response buffer. -/
def answer (s : State) (status : Status) (data : List Byte) : Reply := ⟨s, status, data, true⟩

/-- CS# rises: the transaction of the port is over. -/
def State.endTransaction (s : State) (p : Port) : State := s.setPort p { s.portUnit p with transaction := .idle }

/-- The response placed in the response buffer (R163, R164). -/
def State.respond (s : State) (p : Port) (r : Response) : State := s.setPort p { s.portUnit p with response := r }

/-- The free count, in the data of DEFINE_ENTRY and DELETE_ENTRY (R3). -/
def freeBytes (s : State) : List Byte := countBytes s.freeWords

/-- The data of the OFFLINE response and of the ARGUMENT response of check 7: none, but for DEFINE_ENTRY and
DELETE_ENTRY the free count (R162). -/
def portRefusalData (s : State) : Command → List Byte
  | .defineEntry | .deleteEntry => freeBytes s
  | _ => []

/-- The response to a frame that the port unit rejects (R162). -/
def rejection (s : State) (tag : Byte) : RejectCause → Response
  | .badFrame reason received => ⟨tag, .badFrame, [badFrameCode reason, countByte (min received 255)]⟩
  | .unknown code => ⟨tag, .unknown, [code]⟩
  | .offline c => ⟨tag, .offline, portRefusalData s c⟩
  | .argument c => ⟨tag, .argument, portRefusalData s c⟩

/-- What becomes of a transaction that ends: it is taken, or lost because the part is held in reset (R156) or because a
device reset took effect during it (R157). A port whose CS# was high when its command comes begins and ends the whole
transaction with it. -/
def State.transactionLost (s : State) (p : Port) : Bool :=
  s.resetLow || (s.portUnit p).transaction == .lost

/-- A command of argument length L taken as one happening when CS# rises: checks 6 and 7 of R161, then the owning
block's `body`, then the response into the buffer with the frame's tag (R163). -/
def takeCommand (p : Port) (c : Command) (tag : Byte) (L : Nat) (body : State → Reply) (s : State) : State :=
  if s.transactionLost p then s.endTransaction p
  else if !s.isOnline p && !c.openToOffline then
    (s.endTransaction p).respond p (rejection s tag (.offline c))
  else if !c.accepts L then
    (s.endTransaction p).respond p (rejection s tag (.argument c))
  else
    let r := body (s.endTransaction p)
    if r.placed then r.state.respond p ⟨tag, r.status, r.data⟩ else r.state

/-- The checks of the mode and of the claim that the layout commands, START and RESET_DEVICE share (R145). -/
def claimed (p : Port) (refusalData : List Byte) (body : State → Reply) (s : State) : Reply :=
  if s.mode ≠ .config then answer s .mode refusalData
  else if s.claim ≠ some p then answer s .noClaim refusalData
  else body s

/-! ### Leases (R45) -/

/-- The lease of a group freed by an event: it passes to the head of the wait queue, which receives LEASE_GRANTED, or
becomes free; the counter becomes 0 (R43, R45). -/
def freeLease (g : GroupId) (event : FreeingEvent) (s : State) : State :=
  let r := s.group g
  match r.waitQueue with
  | [] => s.setGroup g { r with lessee := none, patience := 0#8 }
  | next :: rest =>
    (s.setGroup g { r with lessee := some next, waitQueue := rest, patience := 0#8 }).notify next (.leaseGranted g event)

/-- The place of a port in the wait queue: 0 for the lessee, 1 to 3 waiting, FFh for neither (R41, R176). -/
def placeByte (r : Group) (p : Port) : Byte :=
  if r.lessee = some p then 0#8
  else match r.waitQueue.idxOf? p with
    | some k => countByte (k + 1)
    | none => 0xFF#8

/-! ### Sealed sets and discards (R24, R72) -/

/-- The five sealed-set fields at their cleared values (R24). -/
def clearSealed (r : Group) : Group :=
  { r with sealer := none, marked := false, countdown := 0#8, deferrals := 0#8, staleReported := false }

/-- The discard of a group's set: no entry of the group holds a staged value, the group is IDLE, the sealed-set fields
are cleared (R72). Its notices are the causing event's. -/
def discardSet (g : GroupId) (s : State) : State :=
  (s.mapEntries (discardEntry g)).modifyGroup g (fun r => { clearSealed r with state := .idle })

/-- A lessee gives up the lease: a STAGING set is discarded, a SEALED set stays, and the lease is passed on (R43, R53). -/
def giveUpLease (g : GroupId) (event : FreeingEvent) (s : State) : State :=
  freeLease g event (if (s.group g).state = .staging then discardSet g s else s)

/-- The DISCARDED notice of a teardown: to the lessee of a STAGING set, to the sealer of a SEALED one (R73). -/
def teardownDiscardNotice (g : GroupId) (r : Group) (s : State) : State :=
  match r.state with
  | .idle => s
  | .staging => s.notifyOptional r.lessee (.discarded g .stop false)
  | .sealed => s.notifyOptional r.sealer (.discarded g .stop true)

/-- The teardown of one group: LEASE_LOST to the lessee and to the waiting ports, DISCARDED, then the record as R36 gives
(R54, R76). -/
def teardownGroup (s : State) (g : GroupId) : State :=
  let r := s.group g
  let s := s.notifyOptional r.lessee (.leaseLost g .stop false)
  let s := s.notifyEach r.waitQueue (fun _ => .leaseLost g .stop true)
  let s := teardownDiscardNotice g r s
  (discardSet g s).modifyGroup g (fun r =>
    { r with lessee := none, waitQueue := [], patience := 0#8, outstanding := PortSet.none, ackAge := 0#8 })

/-- A change of mode with its MODE notices (R142). -/
def changeMode (new : Mode) (s : State) : State := ({ s with mode := new }).notifyMode new s.mode

/-- Group control's teardown, from G0 to G15 (R153 step 3). -/
def teardownAll (s : State) : State := allGroups.foldl teardownGroup s

/-- A message of mode control to frame timing; the unit takes them in the order in which they are sent (R126). -/
def tellTiming (m : ModeMessage) (s : State) : State := { s with toTiming := s.toTiming ++ [m] }

/-- A STOP, or an entry to CONFIG, comes between every boundary in flight and what it still owes: its evaluations are
left undone (R80, R150) and its patience and ack steps do nothing (R29), in a later run too (log entry 17). -/
def State.voidWork (s : State) : State :=
  { s with boundaries := s.boundaries.map fun w => { w with void := true } }

/-- The entry to CONFIG from STARTING, STOPPING or FAULT (R153): the mode, MODE at every ONLINE port, the teardown, and
then the message to frame timing (R136). What boundaries in flight still owe is void (log entry 17). -/
def enterConfig (s : State) : State := tellTiming .enterConfig (teardownAll (changeMode .config s.voidWork))

/-- Frame timing has not taken the message of an entry to CONFIG: what it has reported so far it produced before that
message reached it, and mode control ignores it (R125, R153). -/
def State.stopUnheard (s : State) : Bool := s.toTiming.contains .enterConfig

/-! ### Boundaries in flight -/

/-- The first item that meets a test, changed; the others as they are. -/
def modifyFirst {α : Type} (test : α → Bool) (f : α → α) : List α → List α
  | [] => []
  | x :: rest => if test x then f x :: rest else x :: modifyFirst test f rest

/-- The items up to and with the first that meets a test, changed; the others as they are. -/
def modifyThrough {α : Type} (test : α → Bool) (f : α → α) : List α → List α
  | [] => []
  | x :: rest => f x :: if test x then rest else modifyThrough test f rest

/-- Whether the commit unit has still to close a boundary; it works on the first such (R79). -/
def BoundaryWork.unclosed (w : BoundaryWork) : Bool := !w.closed

/-- Whether every part of a boundary's work has been taken. -/
def BoundaryWork.finished (w : BoundaryWork) : Bool :=
  w.closed && w.patienceSteps == 0#16 && w.ackSteps == 0#16

/-- Whether a boundary of a kind is a boundary in RUNNING (R79, R125). -/
def BoundaryKind.inRunning : BoundaryKind → Bool
  | .run | .resume => true
  | .start | .stop => false

/-- A boundary as mode control hands it on: at a boundary in RUNNING, group control owes every group a patience step and
an ack step (R29, R49, R112). -/
def newWork (kind : BoundaryKind) (frame : Half) : BoundaryWork where
  kind := kind
  frame := frame
  void := false
  opened := false
  closed := false
  groupEvals := 0#16
  bundleEvals := 0#4
  committed := 0#16
  patienceSteps := if kind.inRunning then BitVec.allOnes 16 else 0#16
  ackSteps := if kind.inRunning then BitVec.allOnes 16 else 0#16

/-- Whether an evaluation or a step that a boundary owes acts when it is taken: only while the mode is RUNNING, and with
no STOP between the boundary and it (R29, R80). -/
def State.actsAt (s : State) (w : BoundaryWork) : Bool := s.mode == .running && !w.void

/-- The boundary the commit unit works on. -/
def State.currentWork (s : State) : Option BoundaryWork := s.boundaries.find? BoundaryWork.unclosed

def State.modifyCurrentWork (s : State) (f : BoundaryWork → BoundaryWork) : State :=
  { s with boundaries := modifyFirst BoundaryWork.unclosed f s.boundaries }

/-- Boundaries whose work is finished leave the list. -/
def State.dropFinished (s : State) : State :=
  { s with boundaries := s.boundaries.filter (fun w => !w.finished) }

/-- Mode control hands a boundary on to the commit unit and group control (R125). -/
def handOn (kind : BoundaryKind) (frame : Half) (s : State) : State :=
  { s with boundaries := s.boundaries ++ [newWork kind frame] }

/-! ### The commit of a group (R92 to R94) -/

/-- The outstanding set that a commit forms: the ACK_ALL subscribers, and the ACK_MARKED subscribers if the set was
marked (R93). -/
def owing (subscriptions : PerPort Subscription) (marked : Bool) : PortSet :=
  PerPort.ofFun fun p =>
    match subscriptions.get p with
    | .ackAll => true
    | .ackMarked => marked
    | .none | .observe | .lapsed => false

/-- Whether a port is told of a commit: as a subscriber, or as the sealer (R94). -/
def toldOfCommit (r : Group) (p : Port) : Bool :=
  match r.subscriptions.get p with
  | .observe | .ackAll | .ackMarked => true
  | .none | .lapsed => r.sealer == some p

/-- A group record after its commit at a boundary (R92, steps 2 to 5). -/
def committedRecord (frame : Half) (r : Group) : Group :=
  clearSealed { r with
    state := .idle
    epoch := nextEpoch r.epoch
    lastSealer := r.sealer
    lastCommitFrame := some frame
    outstanding := owing r.subscriptions r.marked
    ackAge := 0#8 }

/-- The group joins the committed-at-last-boundary set (R92 step 7, R96), and the boundary's own record of what has
committed at it, from which group control learns of the commit (R49, R112). It joins that of every earlier boundary in
flight too, so that a step still owed by one of them does not age the set that the commit formed, nor advance the counter
(R29, R93; log entry 20). -/
def recordCommit (g : GroupId) (s : State) : State :=
  { s with
    committedLast := addTo s.committedLast g
    boundaries := modifyThrough BoundaryWork.unclosed (fun w => { w with committed := addTo w.committed g }) s.boundaries }

/-- The COMMITTED notices of the commit of a group with a record (R94). -/
def notifyCommit (g : GroupId) (r : Group) (s : State) : State :=
  s.notifyEach (Port.all.filter (toldOfCommit r))
    (fun p => .committed g (nextEpoch r.epoch) r.marked ((owing r.subscriptions r.marked).get p))

/-- The commit of a group at the boundary that begins a frame (R92). -/
def commitGroup (frame : Half) (g : GroupId) (s : State) : State :=
  let r := s.group g
  recordCommit g (notifyCommit g r
    ((s.mapEntries (commitEntry g (nextEpoch r.epoch))).setGroup g (committedRecord frame r)))

/-! ### Deferrals (R84, R85) -/

/-- The countdown step of an evaluation: a SEALED group's countdown falls by one (R81). -/
def lowerCountdown (g : GroupId) (s : State) : State :=
  s.modifyGroup g fun r => if r.state = .sealed then { r with countdown := lowerByte r.countdown } else r

/-- Whether a group is SEALED and due (R81, R84). -/
def sealedDue (r : Group) : Bool := r.state == .sealed && r.countdown == 0#8

/-- The ports that DEFERRED goes to: the sealer, then the other ports of the outstanding set (R85). -/
def deferralPorts (r : Group) : List Port :=
  r.sealer.toList ++ Port.all.filter (fun p => r.outstanding.get p && r.sealer != some p)

/-- ACKS when the group itself is owed acknowledgments, PARTNER when only its bundle holds it back (R85). -/
def deferralReason (r : Group) : HoldReason :=
  if r.outstanding = PortSet.none then .partner else .acks

/-- A due set that does not commit: the deferral count rises, and when it comes to the stale limit, DEFERRED is reported
once (R84, R85). -/
def deferGroup (g : GroupId) (s : State) : State :=
  let r := s.group g
  let count := raiseByte r.deferrals
  if count = r.staleLimit ∧ r.staleReported = false then
    (s.setGroup g { r with deferrals := count, staleReported := true }).notifyEach (deferralPorts r)
      (fun _ => .deferred g count (deferralReason r))
  else s.setGroup g { r with deferrals := count }

/-! ### Frame boundaries produced (R125, R137) -/

/-- A report of frame timing to mode control. -/
def tellMode (r : TimingReport) (s : State) : State := { s with toMode := s.toMode ++ [r] }

/-- Frame timing at a boundary: TRACKING, the last boundary time and the frame number (R125 steps 1 and 2). -/
def stampBoundary (time : Nat) (frame : Half) (s : State) : State :=
  { s with
    timing := { s.timing with state := .tracking, lastBoundary := some time, frameNumber := frame }
    now := max s.now time }

/-- FRAME at every ONLINE port for a substitute boundary, with the flywheel count (R131). -/
def notifySubstitute (substitute : Option Byte) (s : State) : State :=
  match substitute with
  | some count => s.notifyEach Port.all (fun _ => .frameSubstitute count)
  | none => s

/-- A boundary produced at a time: stamped, told of if it is a substitute, and handed to mode control (R125).
R136 speaks of one more boundary once mode control has entered CONFIG; the model sets no limit on how many come before frame
timing takes the message of that entry (DESIGN CHOICE, log entry 24). -/
def produceBoundary (time : Nat) (frame : Half) (substitute : Option Byte) (s : State) : State :=
  tellMode (.boundary frame) (notifySubstitute substitute (stampBoundary time frame s))

/-- The early bound of the sync window: 7P/8 µs, rounded up to whole CLK periods (R124). -/
def earlyBound (period : Word) : Nat := (7 * Config.clkPerMicrosecond * period.toNat + 7) / 8

/-- The late bound of the sync window: 9P/8 µs, rounded down to whole CLK periods (R124). -/
def lateBound (period : Word) : Nat := 9 * Config.clkPerMicrosecond * period.toNat / 8

/-- One period on the internal timer: exactly 25 P CLK periods (R124). -/
def periodClocks (period : Word) : Nat := Config.clkPerMicrosecond * period.toNat

/-! ### Device reset (R156, R157) -/

/-- A port unit after a device reset: the reset values; a transaction in progress is lost whole (R157). -/
def resetPort (u : PortUnit) : PortUnit :=
  { PortUnit.reset with transaction := if u.transaction = .idle then .idle else .lost }

/-- A device reset: every block takes its reset values and all work in flight is abandoned. The level of RESET#, the
chip selects, the model's clock and the waiting commands are not the part's to reset. -/
def deviceReset (s : State) : State :=
  { State.reset with
    ports := PerPort.ofFun (fun p => resetPort (s.portUnit p))
    resetLow := s.resetLow
    now := s.now
    pending := s.pending }

end Sys2Proof.Machine
end

