-- ==== Sys2Proof/Machine/Commit.lean ====
section
/-! DEFINITION. The commit unit (chapter 5): DEFINE_BUNDLE, and the work of a boundary: OPENING, the evaluations of
groups and bundles, CLOSING and the end of the COMMIT pulse. -/

namespace Sys2Proof.Machine

open Sys2Proof

/-! ### DEFINE_BUNDLE (R87) -/

/-- The groups of a member list, none if a number is greater than 15. -/
def groupsOf : List Byte → Option (List GroupId)
  | [] => some []
  | b :: rest =>
    match groupOf b, groupsOf rest with
    | some g, some gs => some (g :: gs)
    | _, _ => none

/-- The first group of a list that is a member of a bundle other than b, with that bundle (R87). -/
def heldElsewhere (s : State) (b : BundleId) : List GroupId → Option (GroupId × BundleId)
  | [] => none
  | g :: rest =>
    match allBundles.find? (fun c => c != b && inSet (s.bundle c) g) with
    | some c => some (g, c)
    | none => heldElsewhere s b rest

/-- DEFINE_BUNDLE from the claimant in CONFIG: the cases of ARGUMENT in their order, or the member set replaced (R87). -/
def defineBundleBody (bundle : Byte) (list : List Byte) (s : State) : Reply :=
  match bundleOf bundle with
  | none => answer s .argument []
  | some b =>
    if list.length = 1 then answer s .argument []
    else match groupsOf list with
      | none => answer s .argument []
      | some gs =>
        if ¬ gs.Nodup then answer s .argument []
        else match heldElsewhere s b gs with
          | some (g, c) => answer s .argument [groupByte g, optionalBundle (some c)]
          | none =>
            answer (s.setBundle b (groupSetOf gs)) .ok (optionalBundle (some b) :: halfBytes (groupSetOf gs))

def execDefineBundle (p : Port) (tag bundle : Byte) (list : List Byte) (s : State) : Result :=
  .next (takeCommand p .defineBundle tag (1 + list.length) (claimed p [] (defineBundleBody bundle list)) s)

/-! ### The work at one boundary (R79) -/

/-- The groups that are in no bundle. -/
def looseGroups (s : State) : GroupSet := groupSetOf (allGroups.filter (fun g => (bundleHolding s g).isNone))

/-- The bundles whose member set is not empty. -/
def liveBundles (s : State) : BundleSet :=
  (allBundles.filter (fun b => s.bundle b != 0#16)).foldl addTo 0#4

/-- The opening of the boundary that the commit unit takes next: the committed-at-last-boundary set is emptied; at a
boundary in RUNNING there is one evaluation to make for each group in no bundle and for each bundle with members (R79).
With no boundary to take, or one open already, it changes nothing (log entry 2). It is made in any mode: a boundary handed on
in RUNNING and not yet opened when frame loss enters FAULT is opened there, though R99 has the commit unit take no boundary
in FAULT (DESIGN CHOICE, log entry 18). -/
def execOpening (s : State) : Result :=
  .next <|
    match s.currentWork with
    | none => s
    | some w =>
      if w.opened then s
      else
        { s with committedLast := 0#16 }.modifyCurrentWork fun w =>
          { w with
            opened := true
            groupEvals := if w.kind.inRunning then looseGroups s else 0#16
            bundleEvals := if w.kind.inRunning then liveBundles s else 0#4 }

/-- The evaluation of a group in no bundle (R82). -/
def evaluateGroup (frame : Half) (g : GroupId) (s : State) : State :=
  let s := lowerCountdown g s
  let r := s.group g
  if sealedDue r then
    if r.outstanding = PortSet.none then commitGroup frame g s else deferGroup g s
  else s

/-- The evaluation of a group at the boundary the commit unit works on, if it is still to be made. It acts only while
the mode is RUNNING, and not if a STOP has come since the boundary (R80, R150). One that waits through a FAULT and is taken
once the mode is RUNNING again acts, with its own boundary's frame number (log entry 17). -/
def execGroupEvaluation (g : GroupId) (s : State) : Result :=
  .next <|
    match s.currentWork with
    | none => s
    | some w =>
      if w.opened && inSet w.groupEvals g then
        let s := s.modifyCurrentWork fun w => { w with groupEvals := dropFrom w.groupEvals g }
        if s.actsAt w then evaluateGroup w.frame g s else s
      else s

/-- Whether a bundle commits: no member is STAGING, at least one is SEALED, and every SEALED member has countdown 0 and an
empty outstanding set (R88 step 2). -/
def bundleCommits (s : State) (gs : List GroupId) : Bool :=
  gs.all (fun g => (s.group g).state != .staging)
    && gs.any (fun g => (s.group g).state == .sealed)
    && gs.all (fun g => (s.group g).state != .sealed
        || ((s.group g).countdown == 0#8 && (s.group g).outstanding == PortSet.none))

/-- The evaluation of a bundle: the countdowns, then the commit of every SEALED member or the deferral of those that are
due, in increasing group order (R88, R89, R90, R95). -/
def evaluateBundle (frame : Half) (b : BundleId) (s : State) : State :=
  let gs := members (s.bundle b)
  let s := gs.foldl (fun s g => lowerCountdown g s) s
  if bundleCommits s gs then
    (gs.filter (fun g => (s.group g).state == .sealed)).foldl (fun s g => commitGroup frame g s) s
  else
    (gs.filter (fun g => sealedDue (s.group g))).foldl (fun s g => deferGroup g s) s

/-- The evaluation of a bundle at the boundary the commit unit works on, if it is still to be made. It acts as that of a
group does, in RUNNING with no STOP since the boundary (R80, R150; log entry 17). -/
def execBundleEvaluation (b : BundleId) (s : State) : Result :=
  .next <|
    match s.currentWork with
    | none => s
    | some w =>
      if w.opened && inSet w.bundleEvals b then
        let s := s.modifyCurrentWork fun w => { w with bundleEvals := dropFrom w.bundleEvals b }
        if s.actsAt w then evaluateBundle w.frame b s else s
      else s

/-- The closing of a boundary whose every evaluation has been taken: COMMIT goes high if a group committed at it (R79,
R97). It is made in any mode: R98 says so of STOPPING, and of a closing that falls in FAULT or after the entry to CONFIG the
manual does not speak (DESIGN CHOICE, log entry 18). -/
def execClosing (s : State) : Result :=
  .next <|
    match s.currentWork with
    | none => s
    | some w =>
      if w.opened && w.groupEvals == 0#16 && w.bundleEvals == 0#4 then
        State.dropFinished
          ({ s with
              commitPulse :=
                if s.committedLast ≠ 0#16 then some (s.now + Config.commitPulsePeriods) else s.commitPulse
            }.modifyCurrentWork fun w => { w with closed := true })
      else s

/-- The COMMIT pulse ends 1 µs after it began (R97). -/
def execCommitPulseEnd (s : State) : Result :=
  .next <|
    match s.commitPulse with
    | none => s
    | some time => { s with commitPulse := none, now := max s.now time }

end Sys2Proof.Machine
end

