-- ==== Sys2Proof/Machine/Control.lean ====
section
/-! DEFINITION. Mode control (chapter 8): the claim, START, STOP, RESUME, RESET_DEVICE, the boundaries and the frame
losses that it takes, and the device resets of RESET# and power-up. -/

namespace Sys2Proof.Machine

open Sys2Proof

/-! ### The claim (R143, R144) -/

/-- CLAIM_CONFIG by the mode and the claim (R143). -/
def claimReply (p : Port) (s : State) : Reply :=
  if s.mode ≠ .config then answer s .mode []
  else match s.claim with
    | none => answer { s with claim := some p } .ok [portByte p]
    | some holder => answer s (if holder = p then .already else .busy) [portByte holder]

def execClaimConfig (p : Port) (tag : Byte) (s : State) : Result :=
  .next (takeCommand p .claimConfig tag 0 (claimReply p) s)

/-- RELEASE_CONFIG by the mode and the claim (R144). -/
def releaseClaimReply (p : Port) (s : State) : Reply :=
  if s.mode ≠ .config then answer s .mode []
  else if s.claim = some p then answer { s with claim := none } .ok []
  else answer s .noClaim [optionalPort s.claim]

def execReleaseConfig (p : Port) (tag : Byte) (s : State) : Result :=
  .next (takeCommand p .releaseConfig tag 0 (releaseClaimReply p) s)

/-! ### START, STOP, RESUME -/

/-- E0 to E255, in index order. -/
def allIndices : List Byte := (List.range 256).map (BitVec.ofNat 8)

/-- The first FAN in index order that is not sound (R14). -/
def firstUnsound (s : State) : Option Byte := allIndices.find? (fun i => !soundEntry s (s.entry i))

/-- START from the claimant in CONFIG: INVALID with the first unsound FAN, or the effects of R147 in their order: the
claim absent, STARTING with its MODE notices, the message to frame timing (R146). -/
def startBody (s : State) : Reply :=
  match firstUnsound s with
  | some i => answer s .invalid [i]
  | none =>
    answer (tellTiming (.start s.now) (changeMode .starting { s with claim := none })) .ok
      (sourceCode s.timing.source :: wordBytes s.timing.period)

def execStart (p : Port) (tag : Byte) (s : State) : Result :=
  .next (takeCommand p .start tag 0 (claimed p [] startBody) s)

/-- STOP by the mode, with the mode after the command in the data (R149). In RUNNING it leaves what the boundaries in flight
still owe undone (R29, R80, R150). -/
def stopReply (s : State) : Reply :=
  match s.mode with
  | .config => answer s .mode [modeCode .config]
  | .stopping => answer s .already [modeCode .stopping]
  | .running => answer (changeMode .stopping s.voidWork) .ok [modeCode .stopping]
  | .starting | .fault => answer (enterConfig s) .ok [modeCode .config]

def execStop (p : Port) (tag : Byte) (s : State) : Result :=
  .next (takeCommand p .stop tag 0 stopReply s)

/-- RESUME in FAULT arms frame timing, or is answered ALREADY; elsewhere it is refused with MODE (R134, R152). One taken
after the resume edge and before mode control has taken its boundary arms the unit too, and resume-armed then stays yes
until the next FAULT (DESIGN CHOICE, log entry 22). -/
def resumeReply (s : State) : Reply :=
  match s.mode with
  | .fault =>
    answer { s with timing := { s.timing with resumeArmed := true } }
      (if s.timing.resumeArmed then .already else .ok) (halfBytes s.timing.frameNumber ++ [s.timing.flywheel])
  | .config | .starting | .running | .stopping => answer s .mode []

def execResume (p : Port) (tag : Byte) (s : State) : Result :=
  .next (takeCommand p .resume tag 0 resumeReply s)

/-- RESET_DEVICE from the claimant in CONFIG: a device reset at the rise of the caller's CS#, the response never placed
(R155). -/
def execResetDevice (p : Port) (tag : Byte) (s : State) : Result :=
  .next (takeCommand p .resetDevice tag 0 (claimed p [] (fun s => ⟨deviceReset s, .ok, [], false⟩)) s)

/-! ### Boundaries and frame losses (R125, R133) -/

/-- Mode control takes a boundary in the mode it is in (R125, R141): the start boundary enters RUNNING, a resume boundary
enters RUNNING, a stop boundary enters CONFIG with the teardown, and each is handed on with its kind; in CONFIG it is
ignored, and so is, after a START too, one that frame timing produced before the entry to CONFIG reached it (R125, R153). -/
def takeBoundary (frame : Half) (s : State) : State :=
  if s.stopUnheard then s
  else match s.mode with
  | .config => s
  | .starting => handOn .start frame (changeMode .running s)
  | .running => handOn .run frame s
  | .fault => handOn .resume frame (changeMode .running s)
  | .stopping => handOn .stop frame (enterConfig s)

/-- Mode control takes the next report of frame timing, if it is a boundary (log entry 2). -/
def execBoundaryTaken (s : State) : Result :=
  .next <|
    match s.toMode with
    | .boundary frame :: rest => takeBoundary frame { s with toMode := rest }
    | _ => s

/-- Mode control takes a frame loss: RUNNING becomes FAULT, STOPPING enters CONFIG with the teardown, in CONFIG it is
ignored; in STARTING and FAULT it does not occur, and nothing changes (R133, R141). One that frame timing reported before the
entry to CONFIG reached it is ignored too (log entry 14). -/
def takeFrameLoss (s : State) : State :=
  if s.stopUnheard then s
  else match s.mode with
  | .running => changeMode .fault s
  | .stopping => enterConfig s
  | .config | .starting | .fault => s

/-- Mode control takes the next report of frame timing, if it is a frame loss (log entry 2). -/
def execFrameLoss (s : State) : Result :=
  .next <|
    match s.toMode with
    | .frameLoss :: rest => takeFrameLoss { s with toMode := rest }
    | _ => s

/-! ### Device resets by the pins (R156) -/

/-- RESET# goes low: a device reset, and the part is held in it. -/
def execResetAssert (s : State) : Result := .next { deviceReset s with resetLow := true }

/-- RESET# rises: the part leaves reset with the reset values. -/
def execResetRelease (s : State) : Result := .next { s with resetLow := false }

/-- Power-up: a device reset; the part leaves it when the supply is stable, unless RESET# still holds it. -/
def execPowerUp (s : State) : Result := .next (deviceReset s)

end Sys2Proof.Machine
end

