-- ==== Sys2Proof/Machine/FrameTiming.lean ====
section
/-! DEFINITION. The frame timing unit (chapter 7): SET_FRAME, FSYNC edges, the internal timer, the expiry of the sync
window, and the messages of mode control that the unit takes. -/

namespace Sys2Proof.Machine

open Sys2Proof

/-- SET_FRAME from the claimant in CONFIG: ARGUMENT, or the source and the period replaced, with the window bounds in
the data (R123, R124). R123 has the unit STOPPED throughout CONFIG, and R136 has it run on until the message of the entry to
CONFIG reaches it; a SET_FRAME taken before that replaces the source and the period at once, and they govern the window or
timer still running (DESIGN CHOICE, log entry 23). -/
def setFrameBody (source : Byte) (period : Word) (s : State) : Reply :=
  match sourceOf source with
  | none => answer s .argument []
  | some src =>
    if period.toNat < Config.minPeriod ∨ Config.maxPeriod < period.toNat then answer s .argument []
    else answer { s with timing := { s.timing with source := src, period := period } } .ok
      (sourceCode src :: wordBytes period
        ++ wordBytes (BitVec.ofNat 32 (earlyBound period)) ++ wordBytes (BitVec.ofNat 32 (lateBound period)))

def execSetFrame (p : Port) (tag source : Byte) (period : Word) (s : State) : Result :=
  .next (takeCommand p .setFrame tag 5 (claimed p [] (setFrameBody source period)) s)

/-- An edge judged in TRACKING with source EXTERNAL, by the time since the last boundary (R129). An edge after the late
bound cannot come before the expiry of the window, so it changes nothing (log entry 3). -/
def judgeEdge (time : Nat) (last : Nat) (s : State) : State :=
  if time < last + earlyBound s.timing.period then
    { s with timing := { s.timing with earlySync := raiseHalf s.timing.earlySync }, now := time }
  else if time ≤ last + lateBound s.timing.period then
    produceBoundary time (nextFrame s.timing.frameNumber) none { s with timing := { s.timing with flywheel := 0#8 } }
  else s

/-- An edge seen at a time that is not before the present time. -/
def takeEdge (time : Nat) (s : State) : State :=
  match s.timing.state, s.timing.source with
  | .first, .external => produceBoundary time 0#16 none s
  | .tracking, .external =>
    match s.timing.lastBoundary with
    | some last => judgeEdge time last s
    | none => { s with now := time }
  | .lost, _ =>
    if s.timing.resumeArmed then
      produceBoundary time (nextFrame s.timing.frameNumber) none
        { s with timing := { s.timing with flywheel := 0#8, resumeArmed := false } }
    else { s with now := time }
  | .stopped, _ | .first, .internal | .tracking, .internal => { s with now := time }

/-- A rising edge of FSYNC: the first boundary in FIRST (R127), judged against the window in TRACKING (R129), the resume
boundary in LOST when armed (R135), otherwise ignored (R122, R128, R134); ignored while held in reset (R156). -/
def execFsyncEdge (time : Nat) (s : State) : Result :=
  let time := max s.now time
  .next (if s.resetLow then { s with now := time } else takeEdge time s)

/-- The internal timer runs out: the start boundary in FIRST (R127), one boundary a period in TRACKING; the timer is
restarted from the boundary (R128). With no timer running it changes nothing (log entry 2). -/
def execInternalTimer (s : State) : Result :=
  .next <|
    match s.timing.timer, s.timing.source, s.timing.state with
    | some time, .internal, .first =>
      produceBoundary time 0#16 none
        { s with timing := { s.timing with timer := some (time + periodClocks s.timing.period) } }
    | some time, .internal, .tracking =>
      produceBoundary time (nextFrame s.timing.frameNumber) none
        { s with timing := { s.timing with timer := some (time + periodClocks s.timing.period) } }
    | _, _, _ => s

/-- The window expires: a substitute boundary, or at flywheel count 3 the entry to LOST and the report of frame loss
(R130, R131, R133). Outside TRACKING with source EXTERNAL it changes nothing (log entry 2). -/
def expireWindow (last : Nat) (s : State) : State :=
  let time := last + lateBound s.timing.period
  if s.timing.flywheel.toNat < Config.flywheelLimit.toNat then
    let count := s.timing.flywheel + 1#8
    produceBoundary time (nextFrame s.timing.frameNumber) (some count)
      { s with timing := { s.timing with flywheel := count } }
  else
    tellMode .frameLoss { s with timing := { s.timing with state := .lost }, now := max s.now time }

def execWindowExpiry (s : State) : Result :=
  .next <|
    match s.timing.state, s.timing.source, s.timing.lastBoundary with
    | .tracking, .external, some last => expireWindow last s
    | _, _, _ => s

/-- Frame timing takes the START message: FIRST, the counts and resume-armed cleared, and with source INTERNAL the timer
running from the moment of the START (R126). With no such message next it changes nothing (log entry 2). -/
def execEnterFirst (s : State) : Result :=
  .next <|
    match s.toTiming with
    | .start takenAt :: rest =>
      { s with
        toTiming := rest
        timing :=
          { s.timing with
            state := .first
            flywheel := 0#8
            earlySync := 0#16
            resumeArmed := false
            timer :=
              match s.timing.source with
              | .internal => some (takenAt + periodClocks s.timing.period)
              | .external => none } }
    | _ => s

/-- Frame timing takes the message of an entry to CONFIG: STOPPED, the timer cancelled, resume-armed no, the last boundary
time forgotten; the source, the period, the frame number and the counts kept (R136). A report that mode control has not yet
taken was made before this message reached the unit, so mode control ignores it (R125, R153): it is dropped here (log entry
14). -/
def execEnterStopped (s : State) : Result :=
  .next <|
    match s.toTiming with
    | .enterConfig :: rest =>
      { s with
        toTiming := rest
        toMode := []
        timing := { s.timing with state := .stopped, timer := none, resumeArmed := false, lastBoundary := none } }
    | _ => s

end Sys2Proof.Machine
end

