-- ==== Sys2Proof/Machine/Groups.lean ====
section
/-! DEFINITION. Group records, subscriptions and acknowledgments (chapters 2 and 6): DEFINE_GROUP, GROUP_STATUS,
SUBSCRIBE, ACK and the ack step of a boundary. -/

namespace Sys2Proof.Machine

open Sys2Proof

/-- DEFINE_GROUP from the claimant in CONFIG: ARGUMENT, or the three parameters replaced (R34). -/
def defineGroupBody (group staleLimit ackDeadline patienceLimit : Byte) (s : State) : Reply :=
  match groupOf group with
  | none => answer s .argument []
  | some g =>
    if staleLimit = 0#8 then answer s .argument []
    else answer
      (s.modifyGroup g fun r =>
        { r with staleLimit := staleLimit, ackDeadline := ackDeadline, patienceLimit := patienceLimit })
      .ok [groupByte g, staleLimit, ackDeadline, patienceLimit]

def execDefineGroup (p : Port) (tag group staleLimit ackDeadline patienceLimit : Byte) (s : State) : Result :=
  .next (takeCommand p .defineGroup tag 4
    (claimed p [] (defineGroupBody group staleLimit ackDeadline patienceLimit)) s)

/-- The wait queue in three places, oldest first, FFh in unused places (R183). -/
def queueBytes (queue : List Port) : List Byte :=
  [optionalPort queue[0]?, optionalPort queue[1]?, optionalPort queue[2]?]

/-- The 34 bytes of GROUP_STATUS (R38, R183). -/
def groupStatusData (p : Port) (g : GroupId) (s : State) : List Byte :=
  let r := s.group g
  [groupByte g, groupStateCode r.state] ++ halfBytes r.epoch ++ optionalFrame r.lastCommitFrame
    ++ [optionalPort r.lastSealer, optionalPort r.lessee, countByte r.waitQueue.length] ++ queueBytes r.waitQueue
    ++ [r.patience, optionalPort r.sealer, flagByte r.marked, r.countdown, r.deferrals, flagByte r.staleReported]
    ++ Port.all.map (fun q => subscriptionCode (r.subscriptions.get q))
    ++ [subscriptionCode (r.subscriptions.get p), portSetByte r.outstanding, r.ackAge, r.staleLimit, r.ackDeadline,
        r.patienceLimit, optionalBundle (bundleHolding s g)]
    ++ countBytes (entryCount s g) ++ countBytes (stagedCount s g)

/-- GROUP_STATUS: taken in every mode (R38). -/
def groupStatusReply (p : Port) (group : Byte) (s : State) : Reply :=
  match groupOf group with
  | none => answer s .argument []
  | some g => answer s .ok (groupStatusData p g s)

def execGroupStatus (p : Port) (tag group : Byte) (s : State) : Result :=
  .next (takeCommand p .groupStatus tag 1 (groupStatusReply p group) s)

/-- Whether a subscription takes its port out of the outstanding set when it is chosen (R104). -/
def releasesPort : Subscription → Bool
  | .none | .observe => true
  | .ackAll | .ackMarked | .lapsed => false

/-- SUBSCRIBE: the caller's subscription, and its place in the outstanding set (R103, R104). -/
def subscribeReply (p : Port) (group mode : Byte) (s : State) : Reply :=
  match groupOf group with
  | none => answer s .argument []
  | some g =>
    match chosenSubscription mode with
    | none => answer s .argument []
    | some new =>
      let r := s.group g
      let released := r.outstanding.get p && releasesPort new
      let owes := r.outstanding.get p && !releasesPort new
      answer
        (s.setGroup g
          { r with
            subscriptions := r.subscriptions.set p new
            outstanding := r.outstanding.set p owes })
        .ok [groupByte g, subscriptionCode (r.subscriptions.get p), subscriptionCode new, flagByte released, flagByte owes]

def execSubscribe (p : Port) (tag group mode : Byte) (s : State) : Result :=
  .next (takeCommand p .subscribe tag 2 (subscribeReply p group mode) s)

/-- The data of a response to ACK other than MODE and ARGUMENT: the group, its epoch, the caller's subscription and the
outstanding set after the command (R109). -/
def ackData (p : Port) (g : GroupId) (s : State) : List Byte :=
  let r := s.group g
  groupByte g :: halfBytes r.epoch ++ [subscriptionCode (r.subscriptions.get p), portSetByte r.outstanding]

/-- ACK: taken in RUNNING, STOPPING and FAULT; the epoch is compared for equality only (R109). -/
def ackReply (p : Port) (group : Byte) (epoch : Half) (s : State) : Reply :=
  match s.mode with
  | .config | .starting => answer s .mode []
  | .running | .stopping | .fault =>
    match groupOf group with
    | none => answer s .argument []
    | some g =>
      let r := s.group g
      if r.outstanding.get p = false then answer s .notOwed (ackData p g s)
      else if epoch ≠ r.epoch then answer s .stale (ackData p g s)
      else
        let s := s.setGroup g { r with outstanding := r.outstanding.set p false }
        answer s .ok (ackData p g s)

def execAck (p : Port) (tag group : Byte) (epoch : Half) (s : State) : Result :=
  .next (takeCommand p .ack tag 3 (ackReply p group epoch) s)

/-- The subscriptions after a lapse: LAPSED for every port that was still owing (R114). -/
def lapsedSubscriptions (r : Group) : PerPort Subscription :=
  PerPort.ofFun fun p => if r.outstanding.get p then .lapsed else r.subscriptions.get p

/-- The lapse of a group's holdouts: the set emptied, their subscriptions LAPSED, LAPSED at each of them and at the last
sealer if it is not one of them (R114, R115). -/
def lapseGroup (g : GroupId) (s : State) : State :=
  let r := s.group g
  let count := countByte (portCount r.outstanding)
  let s := s.setGroup g { r with outstanding := PortSet.none, subscriptions := lapsedSubscriptions r }
  let s := s.notifyEach (Port.all.filter r.outstanding.get) (fun _ => .lapsed g r.epoch false count)
  s.notifyEach (r.lastSealer.toList.filter (fun q => !r.outstanding.get q)) (fun _ => .lapsed g r.epoch true count)

/-- The ack step of a group in RUNNING that has not committed at the boundary: the age rises while acknowledgments are
owed, and at the deadline the holdouts lapse (R112, R114). -/
def ageGroup (g : GroupId) (s : State) : State :=
  let r := s.group g
  if r.outstanding = PortSet.none ∨ r.ackAge = 0xFF#8 then s
  else
    let age := r.ackAge + 1#8
    let s := s.setGroup g { r with ackAge := age }
    if r.ackDeadline ≠ 0#8 ∧ age = r.ackDeadline then lapseGroup g s else s

/-- The ack step of a group, of the oldest boundary that owes it one. It acts only while the mode is RUNNING, with no
STOP since that boundary (R29; log entry 17), and the group not committed at it or since (R29, R93, R112; log entry 20). With
no boundary that owes it, it changes nothing (log entry 2). -/
def execAckStep (g : GroupId) (s : State) : Result :=
  .next <|
    match s.boundaries.find? (fun w => inSet w.ackSteps g) with
    | none => s
    | some w =>
      let s := State.dropFinished { s with
        boundaries := modifyFirst (fun w => inSet w.ackSteps g) (fun w => { w with ackSteps := dropFrom w.ackSteps g })
          s.boundaries }
      if s.actsAt w && !inSet w.committed g then ageGroup g s else s

end Sys2Proof.Machine
end

