-- ==== Sys2Proof/Machine/Leases.lean ====
section
/-! DEFINITION. Writer leases (chapter 3): LEASE, RELEASE and the patience step of a boundary. -/

namespace Sys2Proof.Machine

open Sys2Proof

/-- The three items of a response to LEASE or RELEASE: the group, the lessee after the command, the caller's place after
it (R41). -/
def leaseData (p : Port) (g : GroupId) (s : State) : List Byte :=
  [groupByte g, optionalPort (s.group g).lessee, placeByte (s.group g) p]

/-- LEASE by the caller's standing (R42). -/
def leaseGroup (p : Port) (g : GroupId) (s : State) : Reply :=
  let r := s.group g
  match r.lessee with
  | none =>
    let s := s.setGroup g { r with lessee := some p, patience := 0#8 }
    answer s .ok (leaseData p g s)
  | some holder =>
    if holder = p ∨ p ∈ r.waitQueue then answer s .already (leaseData p g s)
    else
      let s := s.setGroup g { r with waitQueue := r.waitQueue ++ [p] }
      answer s .queued (leaseData p g s)

/-- LEASE is taken in RUNNING and FAULT (R41). -/
def leaseReply (p : Port) (group : Byte) (s : State) : Reply :=
  match s.mode with
  | .config | .starting | .stopping => answer s .mode []
  | .running | .fault =>
    match groupOf group with
    | none => answer s .argument []
    | some g => leaseGroup p g s

def execLease (p : Port) (tag group : Byte) (s : State) : Result :=
  .next (takeCommand p .lease tag 1 (leaseReply p group) s)

/-- RELEASE by the lessee (R43), by a waiting port, or by a port that is neither (R44). -/
def releaseGroup (p : Port) (g : GroupId) (s : State) : Reply :=
  let r := s.group g
  if r.lessee = some p then
    let s := giveUpLease g .release s
    answer s .ok [groupByte g, optionalPort (s.group g).lessee, 0xFF#8, flagByte (r.state == .staging)]
  else if p ∈ r.waitQueue then
    let s := s.setGroup g { r with waitQueue := r.waitQueue.filter (· != p) }
    answer s .ok (leaseData p g s)
  else answer s .noLease (leaseData p g s)

/-- RELEASE is taken in RUNNING, FAULT and STOPPING (R41). -/
def releaseReply (p : Port) (group : Byte) (s : State) : Reply :=
  match s.mode with
  | .config | .starting => answer s .mode []
  | .running | .fault | .stopping =>
    match groupOf group with
    | none => answer s .argument []
    | some g => releaseGroup p g s

def execRelease (p : Port) (tag group : Byte) (s : State) : Result :=
  .next (takeCommand p .release tag 1 (releaseReply p group) s)

/-- The revocation of a lease by patience: LEASE_LOST at the lessee, the discard of a STAGING set with its DISCARDED, and
the lease to the head of the wait queue (R50, R75). -/
def revokeLease (g : GroupId) (s : State) : State :=
  let r := s.group g
  let s := s.notifyOptional r.lessee (.leaseLost g .patience false)
  let s := if r.state = .staging then s.notifyOptional r.lessee (.discarded g .patience false) else s
  giveUpLease g .patience s

/-- Whether a patience step advances the counter of a group that has not committed at the boundary (R49). -/
def losesPatience (r : Group) : Bool := r.patienceLimit != 0#8 && !r.waitQueue.isEmpty && r.state != .sealed

/-- The patience counter advanced, and the lease revoked when it comes to the limit (R49, R50). With a limit of 1 this
revokes also a lessee that a RELEASE has only just made so, where R51 says that the lease passes at most once in the two
happenings: DESIGN CHOICE R50, log entry 21. -/
def advancePatience (g : GroupId) (s : State) : State :=
  let r := s.group g
  if losesPatience r then
    let s := s.setGroup g { r with patience := r.patience + 1#8 }
    if r.patience + 1#8 = r.patienceLimit then revokeLease g s else s
  else s

/-- The patience step of a group, of the oldest boundary that owes it one. It acts only while the mode is RUNNING, with
no STOP since that boundary (R29; log entry 17), and the group not committed at it or since (R29, R49; log entry 20). With no
boundary that owes it, it changes nothing (log entry 2). -/
def execPatienceStep (g : GroupId) (s : State) : Result :=
  .next <|
    match s.boundaries.find? (fun w => inSet w.patienceSteps g) with
    | none => s
    | some w =>
      let s := State.dropFinished { s with
        boundaries := modifyFirst (fun w => inSet w.patienceSteps g)
          (fun w => { w with patienceSteps := dropFrom w.patienceSteps g }) s.boundaries }
      if s.actsAt w && !inSet w.committed g then advancePatience g s else s

end Sys2Proof.Machine
end

