-- ==== Sys2Proof/Machine/Ports.lean ====
section
/-! DEFINITION. The port units (chapter 9): NOP, STATUS, JOIN, LEAVE, FETCH, and the transactions that take no command:
CS_FALLS, PURE_READ, BADFRAME; and the arrival of a notice. -/

namespace Sys2Proof.Machine

open Sys2Proof

/-- NOP is answered OK with no data and changes nothing but the response buffer (R175). -/
def execNop (p : Port) (tag : Byte) (s : State) : Result :=
  .next (takeCommand p .nop tag 0 (fun s => answer s .ok []) s)

/-- The 14 bytes of STATUS (R175, R183). -/
def statusData (p : Port) (s : State) : List Byte :=
  let u := s.portUnit p
  [modeCode s.mode, optionalPort s.claim] ++ halfBytes s.timing.frameNumber ++ [s.timing.flywheel]
    ++ halfBytes s.timing.earlySync ++ [flagByte s.timing.resumeArmed] ++ halfBytes s.committedLast
    ++ [sessionCode u.session, u.sessionNumber, flagByte u.attention, countByte u.queue.length]

/-- STATUS is taken in every mode and session state and answered OK (R175). -/
def execStatus (p : Port) (tag : Byte) (s : State) : Result :=
  .next (takeCommand p .status tag 0 (fun s => answer s .ok (statusData p s)) s)

/-- JOIN in OFFLINE opens a session; in ONLINE it is answered ALREADY (R165). -/
def joinReply (p : Port) (attention : Byte) (s : State) : Reply :=
  match flagOf attention with
  | none => answer s .argument []
  | some a =>
    let u := s.portUnit p
    match u.session with
    | .online => answer s .already [u.sessionNumber, flagByte u.attention]
    | .offline =>
      let number := nextSession u.sessionNumber
      answer (s.setPort p { u with session := .online, sessionNumber := number, attention := a }) .ok [number, flagByte a]

def execJoin (p : Port) (tag attention : Byte) (s : State) : Result :=
  .next (takeCommand p .join tag 1 (joinReply p attention) s)

/-- What a LEAVE does in one group: the port leaves the wait queue, gives up the lease if it holds it, leaves the
outstanding set, and its subscription becomes NONE (R37, R53, R118). -/
def leaveGroup (p : Port) (s : State) (g : GroupId) : State :=
  let s := s.modifyGroup g fun r => { r with waitQueue := r.waitQueue.filter (· != p) }
  let s := if (s.group g).lessee = some p then giveUpLease g .leave s else s
  s.modifyGroup g fun r =>
    { r with
      outstanding := r.outstanding.set p false
      subscriptions := r.subscriptions.set p .none }

/-- The end of a session at the port unit (R167 step 3). The session number is kept. -/
def closeSession (p : Port) (s : State) : State :=
  s.setPort p { s.portUnit p with session := .offline, attention := false, queue := [] }

/-- LEAVE closes the session in one happening: every group from G0 to G15, the claim, the port unit (R167). -/
def leaveReply (p : Port) (s : State) : Reply :=
  let s := allGroups.foldl (leaveGroup p) s
  let s := { s with claim := if s.claim = some p then none else s.claim }
  let u := s.portUnit p
  answer (closeSession p s) .ok [u.sessionNumber, countByte u.queue.length]

def execLeave (p : Port) (tag : Byte) (s : State) : Result :=
  .next (takeCommand p .leave tag 0 (leaveReply p) s)

/-- FETCH removes up to n of the oldest notices, n from 1 to 4 (R172, R184). -/
def fetchReply (p : Port) (n : Byte) (s : State) : Reply :=
  if n.toNat < 1 ∨ 4 < n.toNat then answer s .argument []
  else
    let u := s.portUnit p
    let taken := u.queue.take n.toNat
    let kept := u.queue.drop n.toNat
    answer (s.setPort p { u with queue := kept }) .ok
      ([countByte taken.length, countByte kept.length] ++ taken.flatMap queuedRecord)

def execFetch (p : Port) (tag n : Byte) (s : State) : Result :=
  .next (takeCommand p .fetch tag 1 (fetchReply p n) s)

/-- A transaction with a frame that the port unit rejects: the rejection replaces the response buffer and no command is
taken (R161, R162). With no frame byte it is a pure read (R160). Bytes that pass the seven checks are no bad frame: that
transaction is the command they name, and this row changes nothing (log entry 4). -/
def execBadframe (p : Port) (mosi : List Byte) (s : State) : Result :=
  .next <|
    if s.transactionLost p then s.endTransaction p
    else if frameBytes mosi = [] then s.endTransaction p
    else match checkFrame (s.isOnline p) (frameBytes mosi) with
      | .rejected tag cause => (s.endTransaction p).respond p (rejection s tag cause)
      | .accepted _ => s

/-- A transaction with no frame byte leaves the response buffer, the session and the queue as they were (R160). -/
def execPureRead (p : Port) (s : State) : Result := .next (s.endTransaction p)

/-- CS# falls: the port unit begins to shift out the response it holds (R159). While the part is held in reset the
transaction is ignored (R156); one already in progress goes on. -/
def execCsFalls (p : Port) (s : State) : Result :=
  let u := s.portUnit p
  .next <| match u.transaction with
    | .idle => s.setPort p { u with transaction := if s.resetLow then .lost else .shifting u.response }
    | .shifting _ | .lost => s

/-- A notice arrives at a port (R170). -/
def execNoticeArrival (p : Port) (n : Notice) (s : State) : Result := .next (s.notify p n)

end Sys2Proof.Machine
end

