-- ==== Sys2Proof/Machine/Staging.lean ====
section
/-! DEFINITION. Staging and sealing (chapter 4): STAGE, UNSTAGE, SEAL, UNSEAL and READ_STAGED. -/

namespace Sys2Proof.Machine

open Sys2Proof

/-! ### The checks of R57 -/

/-- The lease check: NOLEASE with the group and the present lessee, if the lessee field does not name the caller (R57
step 4). -/
def withLease (p : Port) (g : GroupId) (body : State → Reply) (s : State) : Reply :=
  if (s.group g).lessee = some p then body s
  else answer s .noLease [groupByte g, optionalPort (s.group g).lessee]

/-- BUSY, with the group, the state SEALED and the sealer (R58). -/
def busyReply (g : GroupId) (s : State) : Reply :=
  answer s .busy [groupByte g, groupStateCode .sealed, optionalPort (s.group g).sealer]

/-- The patience counter cleared by an accepted command of the lessee (R48). -/
def showProgress (r : Group) : Group := { r with patience := 0#8 }

/-! ### STAGE -/

/-- A staged set opened, or carried on, by an accepted STAGE (R58). -/
def openStaging (g : GroupId) (s : State) : State :=
  s.modifyGroup g fun r => { showProgress r with state := .staging }

/-- A list of words admitted by the limits; only an entry of width 1 has limits (R5, R19). -/
def admitWords (limits : Option Limits) (words : List Word) : Option (List Word) :=
  match words with
  | [] => some []
  | w :: rest =>
    match admitWord limits w, admitWords limits rest with
    | some w', some rest' => some (w' :: rest')
    | _, _ => none

/-- OK, or CLAMPED if a word was replaced (R19). -/
def stagedStatus (clamped : Bool) : Status := if clamped then .clamped else .ok

/-- The table's part of a STAGE of a VALUE entry (R19), with the data of R58. -/
def stageValue (p : Port) (index : Byte) (words : List Word) (v : ValueEntry) (s : State) : Reply :=
  if words.length ≠ v.width then answer s .argument []
  else if v.writers.get p = false then answer s .denied []
  else match admitWords v.limits words with
    | none => answer s .range []
    | some staged =>
      let s := openStaging v.group (s.setEntry index (writeStaged staged (some (.value v))))
      answer s (stagedStatus (staged != words))
        (index :: countByte staged.length :: wordsBytes staged ++ countBytes (stagedCount s v.group))

/-- The targets of a FAN with the word staged into each, or the status and the index of the first that fails (R20). -/
def admitTargets (p : Port) (w : Word) : List (Byte × ValueEntry) → Except (Status × Byte) (List (Byte × Word))
  | [] => .ok []
  | (i, v) :: rest =>
    if v.writers.get p = false then .error (.denied, i)
    else match admitWord v.limits w with
      | none => .error (.range, i)
      | some w' =>
        match admitTargets p w rest with
        | .ok staged => .ok ((i, w') :: staged)
        | .error failed => .error failed

/-- The words of a list staged, each into its own entry. -/
def writeTargets (s : State) (staged : List (Byte × Word)) : State :=
  staged.foldl (fun s (i, w) => s.setEntry i (writeStaged [w] (s.entry i))) s

/-- The table's part of a STAGE of a FAN entry (R20), with the data of R58. An unsound FAN, which no run reaches, is
answered INVALID (R14, log entry 9). -/
def stageFan (p : Port) (index : Byte) (words : List Word) (f : FanEntry) (s : State) : Reply :=
  match words with
  | [w] =>
    if f.writers.get p = false then answer s .denied [index]
    else match fanTargets s f with
      | none => answer s .invalid [index]
      | some targets =>
        match admitTargets p w targets with
        | .error (status, i) => answer s status [i]
        | .ok staged =>
          let s := openStaging f.group (writeTargets s staged)
          answer s (stagedStatus (staged.any (fun (_, w') => w' != w)))
            (countByte staged.length :: staged.flatMap (fun (i, w') => i :: wordBytes w')
              ++ countBytes (stagedCount s f.group))
  | _ => answer s .argument []

/-- STAGE of a found entry after the mode: the lease, the group state, then the table's checks (R57, R58). -/
def stageEntry (p : Port) (index : Byte) (words : List Word) (e : Entry) (s : State) : Reply :=
  withLease p e.group (fun s =>
    match (s.group e.group).state with
    | .sealed => busyReply e.group s
    | .idle | .staging =>
      match e with
      | .value v => stageValue p index words v s
      | .fan f => stageFan p index words f s) s

/-- STAGE is taken in RUNNING and FAULT (R57). -/
def stageReply (p : Port) (index : Byte) (words : List Word) (s : State) : Reply :=
  match s.mode with
  | .config | .starting | .stopping => answer s .mode []
  | .running | .fault =>
    match s.entry index with
    | none => answer s .noEntry [index]
    | some e => stageEntry p index words e s

def execStage (p : Port) (tag index : Byte) (words : List Word) (s : State) : Result :=
  .next (takeCommand p .stage tag (1 + 4 * words.length) (stageReply p index words) s)

/-! ### UNSTAGE -/

/-- The indices whose staged value an UNSTAGE of an entry removes: the entry's own, or every target's of a FAN (R21). -/
def unstageIndices (index : Byte) : Entry → List Byte
  | .value _ => [index]
  | .fan f => f.targets

/-- Whether an index holds a staged value. -/
def holdsStaged (s : State) (i : Byte) : Bool :=
  match s.entry i with
  | some (.value v) => v.staged.isSome
  | _ => false

/-- The staged values of a list of indices removed. -/
def unstageAll (s : State) (indices : List Byte) : State :=
  indices.foldl (fun s i => s.setEntry i (clearStaged (s.entry i))) s

/-- The data of an accepted UNSTAGE: the index, whether a staged value was removed, the staged count after it (R61). -/
def unstageData (index : Byte) (removed : Bool) (g : GroupId) (s : State) : List Byte :=
  index :: flagByte removed :: countBytes (stagedCount s g)

/-- UNSTAGE by the group state (R61). An unsound FAN is answered INVALID (R14, log entry 9). -/
def unstageEntry (p : Port) (index : Byte) (e : Entry) (s : State) : Reply :=
  withLease p e.group (fun s =>
    match (s.group e.group).state with
    | .sealed => busyReply e.group s
    | .idle =>
      let s := s.modifyGroup e.group showProgress
      answer s .ok (unstageData index false e.group s)
    | .staging =>
      if soundEntry s (some e) then
        let indices := unstageIndices index e
        let removed := indices.any (holdsStaged s)
        let s := (unstageAll s indices).modifyGroup e.group showProgress
        answer s .ok (unstageData index removed e.group s)
      else answer s .invalid [index]) s

/-- UNSTAGE is taken in RUNNING and FAULT (R57). -/
def unstageReply (p : Port) (index : Byte) (s : State) : Reply :=
  match s.mode with
  | .config | .starting | .stopping => answer s .mode []
  | .running | .fault =>
    match s.entry index with
    | none => answer s .noEntry [index]
    | some e => unstageEntry p index e s

def execUnstage (p : Port) (tag index : Byte) (s : State) : Result :=
  .next (takeCommand p .unstage tag 1 (unstageReply p index) s)

/-! ### SEAL and UNSEAL -/

/-- A record as an accepted SEAL leaves it (R24, R63). -/
def sealedRecord (p : Port) (delay : Byte) (marked : Bool) (r : Group) : Group :=
  { showProgress r with
    state := .sealed
    sealer := some p
    marked := marked
    countdown := delay + 1#8
    deferrals := 0#8
    staleReported := false }

/-- SEAL after its argument checks (R63). -/
def sealGroup (p : Port) (g : GroupId) (delay : Byte) (marked : Bool) (s : State) : Reply :=
  withLease p g (fun s =>
    match (s.group g).state with
    | .sealed => busyReply g s
    | .idle | .staging =>
      let s := s.modifyGroup g (sealedRecord p delay marked)
      answer s .ok
        (groupByte g :: halfBytes (s.group g).epoch ++ (s.group g).countdown :: countBytes (stagedCount s g))) s

/-- SEAL is taken in RUNNING and FAULT; a group above 15, a delay above 15 or a bad flag is ARGUMENT (R57, R63). -/
def sealReply (p : Port) (group delay marked : Byte) (s : State) : Reply :=
  match s.mode with
  | .config | .starting | .stopping => answer s .mode []
  | .running | .fault =>
    match groupOf group, flagOf marked with
    | some g, some m => if 15 < delay.toNat then answer s .argument [] else sealGroup p g delay m s
    | _, _ => answer s .argument []

def execSeal (p : Port) (tag group delay marked : Byte) (s : State) : Result :=
  .next (takeCommand p .seal tag 3 (sealReply p group delay marked) s)

/-- UNSEAL after its argument check: a SEALED group returns to STAGING with its values; otherwise LATE (R68, R69). -/
def unsealGroup (p : Port) (g : GroupId) (s : State) : Reply :=
  withLease p g (fun s =>
    let r := s.group g
    match r.state with
    | .sealed =>
      let s := s.setGroup g { clearSealed (showProgress r) with state := .staging }
      answer s .ok (groupByte g :: countBytes (stagedCount s g) ++ [optionalPort r.sealer])
    | .idle | .staging => answer s .late (groupByte g :: groupStateCode r.state :: halfBytes r.epoch)) s

/-- UNSEAL is taken in RUNNING and FAULT (R57). -/
def unsealReply (p : Port) (group : Byte) (s : State) : Reply :=
  match s.mode with
  | .config | .starting | .stopping => answer s .mode []
  | .running | .fault =>
    match groupOf group with
    | none => answer s .argument []
    | some g => unsealGroup p g s

def execUnseal (p : Port) (tag group : Byte) (s : State) : Result :=
  .next (takeCommand p .unseal tag 1 (unsealReply p group) s)

/-! ### READ_STAGED -/

/-- The staged words with the flag yes, or the active words with the flag no (R62). -/
def shownWords (v : ValueEntry) : List Word × Bool :=
  match v.staged with
  | some words => (words, true)
  | none => (v.active, false)

/-- READ_STAGED of a found entry, in every group state (R62, R182). An unsound FAN is answered INVALID (R14, log entry
9). -/
def readStagedEntry (p : Port) (index : Byte) (e : Entry) (s : State) : Reply :=
  withLease p e.group (fun s =>
    match e with
    | .value v => answer s .ok (countByte v.width :: wordsBytes (shownWords v).1 ++ [flagByte (shownWords v).2])
    | .fan f =>
      match fanTargets s f with
      | none => answer s .invalid [index]
      | some targets =>
        answer s .ok (countByte targets.length ::
          targets.flatMap (fun (i, v) => i :: wordsBytes (shownWords v).1 ++ [flagByte (shownWords v).2]))) s

/-- READ_STAGED is taken in RUNNING, FAULT and STOPPING (R57). -/
def readStagedReply (p : Port) (index : Byte) (s : State) : Reply :=
  match s.mode with
  | .config | .starting => answer s .mode []
  | .running | .fault | .stopping =>
    match s.entry index with
    | none => answer s .noEntry [index]
    | some e => readStagedEntry p index e s

def execReadStaged (p : Port) (tag index : Byte) (s : State) : Result :=
  .next (takeCommand p .readStaged tag 1 (readStagedReply p index) s)

end Sys2Proof.Machine
end

