-- ==== Sys2Proof/Machine/Table.lean ====
section
/-! DEFINITION. The parameter table (chapter 1): DEFINE_ENTRY, DEFINE_FAN, DELETE_ENTRY, READ and READ_SET. -/

namespace Sys2Proof.Machine

open Sys2Proof

/-! ### DEFINE_ENTRY -/

/-- The limits that a DEFINE_ENTRY carries, and its initial-value words (R11, R179): none if the limits code is out of
range, or if min is greater than max, or if there are limits and no room for min and max. -/
def definedLimits (code : Byte) (words : List Word) : Option (Option Limits × List Word) :=
  match limitsCodeOf code with
  | .outOfRange => none
  | .absent => some (none, words)
  | .present kind policy =>
    match words with
    | min :: max :: initial => if kind.le min max then some (some ⟨kind, min, max, policy⟩, initial) else none
    | _ => none

/-- The VALUE entry that a DEFINE_ENTRY describes, or none for a case of ARGUMENT (R11, R12 step 4). -/
def definedEntry (group width writers limits : Byte) (words : List Word) : Option ValueEntry :=
  match groupOf group, writersOf writers, definedLimits limits words with
  | some g, some ports, some (lim, initial) =>
    if width.toNat < 1 ∨ 4 < width.toNat then none
    else if initial.length ≠ width.toNat then none
    else if lim.isSome ∧ 1 < width.toNat then none
    else some
      { group := g, width := width.toNat, active := initial, staged := none, epoch := 0#16, writers := ports, limits := lim }
  | _, _, _ => none

/-- Whether every initial word is within the limits; only an entry of width 1 has limits (R5, R12 step 2). -/
def withinLimits (v : ValueEntry) : Bool :=
  match v.limits with
  | none => true
  | some l => v.active.all l.within

/-- DEFINE_ENTRY from the claimant in CONFIG: ARGUMENT, ALREADY, RANGE, FULL or OK, each with the free count after the
command (R11, R12). -/
def defineEntryBody (index group width writers limits : Byte) (words : List Word) (s : State) : Reply :=
  match definedEntry group width writers limits words with
  | none => answer s .argument (freeBytes s)
  | some v =>
    if (s.entry index).isSome then answer s .already (freeBytes s)
    else if !withinLimits v then answer s .range (freeBytes s)
    else if s.freeWords < v.width then answer s .full (freeBytes s)
    else
      let s := { s.setEntry index (some (.value v)) with freeWords := s.freeWords - v.width }
      answer s .ok (freeBytes s)

def execDefineEntry (p : Port) (tag index group width writers limits : Byte) (words : List Word) (s : State) : Result :=
  .next (takeCommand p .defineEntry tag (5 + 4 * words.length)
    (fun s => claimed p (freeBytes s) (defineEntryBody index group width writers limits words) s) s)

/-! ### DEFINE_FAN -/

/-- The FAN entry that a DEFINE_FAN describes, or none for a case of ARGUMENT (R13). -/
def definedFan (index group writers : Byte) (targets : List Byte) : Option FanEntry :=
  match groupOf group, writersOf writers with
  | some g, some ports =>
    if targets.length < 1 ∨ 4 < targets.length then none
    else if ¬ targets.Nodup then none
    else if index ∈ targets then none
    else some ⟨g, ports, targets⟩
  | _, _ => none

/-- DEFINE_FAN from the claimant in CONFIG: ARGUMENT, ALREADY or OK; the targets are not checked (R13). -/
def defineFanBody (index group writers : Byte) (targets : List Byte) (s : State) : Reply :=
  match definedFan index group writers targets with
  | none => answer s .argument []
  | some f =>
    if (s.entry index).isSome then answer s .already []
    else answer (s.setEntry index (some (.fan f))) .ok []

def execDefineFan (p : Port) (tag index group writers : Byte) (targets : List Byte) (s : State) : Result :=
  .next (takeCommand p .defineFan tag (3 + targets.length)
    (claimed p [] (defineFanBody index group writers targets)) s)

/-! ### DELETE_ENTRY -/

/-- The store words that an entry takes: a FAN takes none (R3). -/
def storeWordsOf : Entry → Nat
  | .value v => v.width
  | .fan _ => 0

/-- DELETE_ENTRY from the claimant in CONFIG: NOENTRY with the index and the free count, or OK with the free count after
the command (R3, R15). -/
def deleteEntryBody (index : Byte) (s : State) : Reply :=
  match s.entry index with
  | none => answer s .noEntry (index :: freeBytes s)
  | some e =>
    let s := { s.setEntry index none with freeWords := s.freeWords + storeWordsOf e }
    answer s .ok (freeBytes s)

def execDeleteEntry (p : Port) (tag index : Byte) (s : State) : Result :=
  .next (takeCommand p .deleteEntry tag 1 (fun s => claimed p (freeBytes s) (deleteEntryBody index) s) s)

/-! ### READ and READ_SET -/

/-- What a read of an index finds (R16). -/
inductive ReadItem where
  | undefined
  | unsound
  | item (width : Nat) (words : List Word) (entryEpoch groupEpoch : Half)
  deriving DecidableEq, Repr

/-- An index read: a VALUE entry's own value and epochs, a sound FAN's from its first target (R16). -/
def readItem (s : State) (index : Byte) : ReadItem :=
  match s.entry index with
  | none => .undefined
  | some (.value v) => .item v.width v.active v.epoch (s.group v.group).epoch
  | some (.fan f) =>
    match fanTargets s f with
    | some ((_, v) :: _) => .item 1 v.active v.epoch (s.group f.group).epoch
    | _ => .unsound

/-- READ: NOENTRY or INVALID with the index, or OK with the width, the words and the two epochs (R16, R182). -/
def readReply (index : Byte) (s : State) : Reply :=
  match readItem s index with
  | .undefined => answer s .noEntry [index]
  | .unsound => answer s .invalid [index]
  | .item width words e g => answer s .ok (countByte width :: wordsBytes words ++ halfBytes e ++ halfBytes g)

def execRead (p : Port) (tag index : Byte) (s : State) : Result :=
  .next (takeCommand p .read tag 1 (readReply index) s)

/-- The items of a list of indices, or the status and the index of the first that fails (R17). -/
def readItems (s : State) : List Byte → Except (Status × Byte) (List (Nat × List Word × Half × Half))
  | [] => .ok []
  | index :: rest =>
    match readItem s index with
    | .undefined => .error (.noEntry, index)
    | .unsound => .error (.invalid, index)
    | .item width words e g =>
      match readItems s rest with
      | .ok items => .ok ((width, words, e, g) :: items)
      | .error failed => .error failed

/-- The 2-bit code of a width in the width map: 00 for 1 to 11 for 4 (R182). -/
def widthCode (width : Nat) : BitVec 2 := BitVec.ofNat 2 (width - 1)

/-- The width map: one code per item, packed from the most significant bits of its first byte, unused bits zero (R182). -/
def widthMap : List Nat → List Byte
  | [] => []
  | [a] => [widthCode a ++ 0#6]
  | [a, b] => [widthCode a ++ widthCode b ++ 0#4]
  | [a, b, c] => [widthCode a ++ widthCode b ++ widthCode c ++ 0#2]
  | a :: b :: c :: d :: rest => (widthCode a ++ widthCode b ++ widthCode c ++ widthCode d) :: widthMap rest

/-- The data of an OK response to READ_SET: the width map, left out when every item has width 4, then the items (R182). -/
def readSetData (items : List (Nat × List Word × Half × Half)) : List Byte :=
  let widths := items.map (·.1)
  (if widths.all (· == 4) then [] else widthMap widths)
    ++ items.flatMap (fun (_, words, e, g) => wordsBytes words ++ halfBytes e ++ halfBytes g)

/-- READ_SET: the first index that fails decides, else one item per index in list order (R17). -/
def readSetReply (indices : List Byte) (s : State) : Reply :=
  match readItems s indices with
  | .error (status, index) => answer s status [index]
  | .ok items => answer s .ok (readSetData items)

def execReadSet (p : Port) (tag : Byte) (indices : List Byte) (s : State) : Result :=
  .next (takeCommand p .readSet tag indices.length (readSetReply indices) s)

end Sys2Proof.Machine
end

