-- ==== Sys2Proof/Machine/Dispatch.lean ====
section
/-! DEFINITION. One arm per constructor of Instr, each one direct call of its meaning. -/

namespace Sys2Proof.Machine

open Sys2Proof

def exec (i : Instr) (s : State) : Host.Outcome State Fault Refusal :=
  match i with
  | .nop port tag => Sys2Proof.Machine.execNop port tag s
  | .status port tag => Sys2Proof.Machine.execStatus port tag s
  | .join port tag attention => Sys2Proof.Machine.execJoin port tag attention s
  | .leave port tag => Sys2Proof.Machine.execLeave port tag s
  | .fetch port tag n => Sys2Proof.Machine.execFetch port tag n s
  | .claimConfig port tag => Sys2Proof.Machine.execClaimConfig port tag s
  | .releaseConfig port tag => Sys2Proof.Machine.execReleaseConfig port tag s
  | .start port tag => Sys2Proof.Machine.execStart port tag s
  | .stop port tag => Sys2Proof.Machine.execStop port tag s
  | .resume port tag => Sys2Proof.Machine.execResume port tag s
  | .resetDevice port tag => Sys2Proof.Machine.execResetDevice port tag s
  | .defineEntry port tag index group width writers limits words => Sys2Proof.Machine.execDefineEntry port tag index group width writers limits words s
  | .defineFan port tag index group writers targets => Sys2Proof.Machine.execDefineFan port tag index group writers targets s
  | .deleteEntry port tag index => Sys2Proof.Machine.execDeleteEntry port tag index s
  | .defineGroup port tag group staleLimit ackDeadline patienceLimit => Sys2Proof.Machine.execDefineGroup port tag group staleLimit ackDeadline patienceLimit s
  | .defineBundle port tag bundle members => Sys2Proof.Machine.execDefineBundle port tag bundle members s
  | .setFrame port tag source period => Sys2Proof.Machine.execSetFrame port tag source period s
  | .read port tag index => Sys2Proof.Machine.execRead port tag index s
  | .readSet port tag indices => Sys2Proof.Machine.execReadSet port tag indices s
  | .groupStatus port tag group => Sys2Proof.Machine.execGroupStatus port tag group s
  | .lease port tag group => Sys2Proof.Machine.execLease port tag group s
  | .release port tag group => Sys2Proof.Machine.execRelease port tag group s
  | .stage port tag index words => Sys2Proof.Machine.execStage port tag index words s
  | .unstage port tag index => Sys2Proof.Machine.execUnstage port tag index s
  | .seal port tag group delay marked => Sys2Proof.Machine.execSeal port tag group delay marked s
  | .unseal port tag group => Sys2Proof.Machine.execUnseal port tag group s
  | .readStaged port tag index => Sys2Proof.Machine.execReadStaged port tag index s
  | .subscribe port tag group mode => Sys2Proof.Machine.execSubscribe port tag group mode s
  | .ack port tag group epoch => Sys2Proof.Machine.execAck port tag group epoch s
  | .badframe port mosi => Sys2Proof.Machine.execBadframe port mosi s
  | .pureRead port => Sys2Proof.Machine.execPureRead port s
  | .fsyncEdge time => Sys2Proof.Machine.execFsyncEdge time s
  | .internalTimer => Sys2Proof.Machine.execInternalTimer s
  | .windowExpiry => Sys2Proof.Machine.execWindowExpiry s
  | .frameLoss => Sys2Proof.Machine.execFrameLoss s
  | .boundaryTaken => Sys2Proof.Machine.execBoundaryTaken s
  | .enterFirst => Sys2Proof.Machine.execEnterFirst s
  | .enterStopped => Sys2Proof.Machine.execEnterStopped s
  | .opening => Sys2Proof.Machine.execOpening s
  | .groupEvaluation g => Sys2Proof.Machine.execGroupEvaluation g s
  | .bundleEvaluation b => Sys2Proof.Machine.execBundleEvaluation b s
  | .closing => Sys2Proof.Machine.execClosing s
  | .commitPulseEnd => Sys2Proof.Machine.execCommitPulseEnd s
  | .patienceStep g => Sys2Proof.Machine.execPatienceStep g s
  | .ackStep g => Sys2Proof.Machine.execAckStep g s
  | .noticeArrival port notice => Sys2Proof.Machine.execNoticeArrival port notice s
  | .resetAssert => Sys2Proof.Machine.execResetAssert s
  | .resetRelease => Sys2Proof.Machine.execResetRelease s
  | .powerUp => Sys2Proof.Machine.execPowerUp s
  | .csFalls port => Sys2Proof.Machine.execCsFalls port s

end Sys2Proof.Machine
end

