-- ==== Sys2Proof/Safety.lean ====
section
/-! DEFINITION. What the manual says is true of the part at all times, in the terms that the statements use. Each is
written to be kept by every step from every state that meets it, not only on runs from reset. -/

namespace Sys2Proof.Machine

open Sys2Proof

/-! ### Commands that are taken (R156 to R164) -/

/-- A transaction that ends on the port is taken: the part is not held in reset (R156), and no reset took effect during the
transaction (R157). -/
abbrev Hears (s : State) (p : Port) : Prop := s.resetLow = false ∧ (s.portUnit p).transaction ≠ .lost

/-- The same, at an ONLINE port. -/
abbrev Taken (s : State) (p : Port) : Prop := Hears s p ∧ s.isOnline p = true

/-- A state with the transaction of a port over and a response in its buffer (R163). -/
def answered (p : Port) (tag : Byte) (status : Status) (data : List Byte) (s : State) : State :=
  s.setPort p { s.portUnit p with transaction := .idle, response := ⟨tag, status, data⟩ }

/-- A state with the transaction of a port over and nothing else changed. -/
def transactionOver (p : Port) (s : State) : State := s.setPort p { s.portUnit p with transaction := .idle }

/-- The commands that need the configuration claim (R145). -/
def needsClaim : Command → Bool
  | .defineEntry | .defineFan | .deleteEntry | .defineGroup | .defineBundle | .setFrame | .start | .resetDevice => true
  | _ => false

/-- The commands whose response from the port unit carries the free count (R162). -/
def carriesFreeCount : Command → Bool
  | .defineEntry | .deleteEntry => true
  | _ => false

/-- The free count as data where a command's refusals carry it, otherwise no data (R3, R162). -/
def refusalData (s : State) (c : Command) : List Byte := if carriesFreeCount c then countBytes s.freeWords else []

/-- The port of a row that is a transaction on a port. -/
def portOf : Instr → Option Port
  | .badframe p _ | .pureRead p | .csFalls p => some p
  | i => i.parts.map (·.1)

/-- A writer-set byte stands for a set of ports (R6, R176). -/
abbrev WritersByte (b : Byte) (set : PortSet) : Prop := b = portSetByte set ∨ (b = 0xFF#8 ∧ set = PortSet.every)

/-! ### Notice queues (R170) -/

def QueuedNotice.isOverflow : QueuedNotice → Bool
  | .overflow _ _ => true
  | .notice _ _ => false

/-- At most 32 notices, and none but OVERFLOW in the 32nd place (R170). -/
def QueueBounded (queue : List QueuedNotice) : Prop :=
  queue.length ≤ 32 ∧ ∀ x, queue[31]? = some x → x.isOverflow = true

def QueuesBounded (s : State) : Prop := ∀ p, QueueBounded (s.portUnit p).queue

/-- An OFFLINE port holds no notices and has attention enable no (R165, R167, R171). -/
def OfflineQuiet (s : State) : Prop :=
  ∀ p, s.isOnline p = false → (s.portUnit p).queue = [] ∧ (s.portUnit p).attention = false

/-! ### Responses (R163, R180) -/

/-- Every response held, and every response being shifted out, has at most 160 data bytes (R163, R180). -/
def ResponsesFit (s : State) : Prop :=
  ∀ p, (s.portUnit p).response.data.length ≤ 160
    ∧ ∀ r, (s.portUnit p).transaction = .shifting r → r.data.length ≤ 160

/-! ### The value store (R1, R3) -/

/-- The store words that a record takes (R3). -/
def wordsTaken : Option Entry → Nat
  | some (.value v) => v.width
  | some (.fan _) | none => 0

/-- The sum of the widths of all defined VALUE entries (R3). -/
def wordsInUse (s : State) : Nat := (s.entries.toList.map wordsTaken).sum

/-- A VALUE entry's width is 1 to 4 and its lists are of that width; a FAN has 1 to 4 targets (R1). -/
def EntryShaped : Entry → Prop
  | .value v =>
    1 ≤ v.width ∧ v.width ≤ 4 ∧ v.active.length = v.width ∧ (∀ words, v.staged = some words → words.length = v.width)
  | .fan f => 1 ≤ f.targets.length ∧ f.targets.length ≤ 4

/-- The free count and the words in use make 512, and every entry has its shape (R1, R3). -/
def StoreAccounted (s : State) : Prop :=
  wordsInUse s + s.freeWords = 512 ∧ ∀ i e, s.entry i = some e → EntryShaped e

/-- The limits of an entry have min not greater than max, and every active and every staged value of the entry lies within
them (R5, R11). -/
def LimitsHeld (s : State) : Prop :=
  ∀ i v l, s.entry i = some (.value v) → v.limits = some l →
    l.kind.le l.min l.max = true
      ∧ (∀ w ∈ v.active, l.within w = true)
      ∧ (∀ words, v.staged = some words → ∀ w ∈ words, l.within w = true)

/-- No entry's epoch is greater than its group's (R7). -/
def EpochsOrdered (s : State) : Prop :=
  ∀ i v, s.entry i = some (.value v) → v.epoch.toNat ≤ (s.group v.group).epoch.toNat

/-! ### Leases (R40) -/

/-- The wait queue holds each port at most once and not the lessee; a free lease has an empty queue; the lessee and the
waiting ports are ONLINE (R40). -/
def LeaseOrdered (s : State) (r : Group) : Prop :=
  r.waitQueue.Nodup
    ∧ (∀ p, r.lessee = some p → p ∉ r.waitQueue ∧ s.isOnline p = true)
    ∧ (r.lessee = none → r.waitQueue = [])
    ∧ (∀ p ∈ r.waitQueue, s.isOnline p = true)

def LeasesOrdered (s : State) : Prop := ∀ g, LeaseOrdered s (s.group g)

/-- The patience counter is 0 in CONFIG and STARTING and where there is no limit, and below the limit where there is one
(R36, R48, R50). -/
def PatienceHeld (s : State) : Prop :=
  ∀ g,
    (s.mode = .config ∨ s.mode = .starting ∨ (s.group g).patienceLimit = 0#8 → (s.group g).patience = 0#8)
      ∧ ((s.group g).patienceLimit ≠ 0#8 → (s.group g).patience.toNat < (s.group g).patienceLimit.toNat)

/-! ### Acknowledgments (R107, R166) -/

/-- The outstanding set holds only ports subscribed ACK_ALL or ACK_MARKED, and only an ONLINE port is subscribed (R107,
R166). -/
def ObligationsHeld (s : State) : Prop :=
  ∀ g p,
    ((s.group g).outstanding.get p = true →
      (s.group g).subscriptions.get p = .ackAll ∨ (s.group g).subscriptions.get p = .ackMarked)
    ∧ ((s.group g).subscriptions.get p ≠ .none → s.isOnline p = true)

/-! ### Group states and modes (R24, R26, R140) -/

/-- In CONFIG and STARTING a group is IDLE with no lessee and no acknowledgment owed; a STAGING group has a lessee; a
SEALED group has a sealer and a countdown of at most 16; a group that is not SEALED has its sealed-set fields cleared
(R24, R26, R40, R140). -/
def GroupLegal (mode : Mode) (r : Group) : Prop :=
  (mode = .config ∨ mode = .starting → r.state = .idle ∧ r.lessee = none ∧ r.waitQueue = [] ∧ r.outstanding = PortSet.none)
    ∧ (r.state = .staging → r.lessee ≠ none)
    ∧ (r.state = .sealed → r.sealer ≠ none ∧ r.countdown.toNat ≤ 16)
    ∧ (r.state ≠ .sealed →
        r.sealer = none ∧ r.marked = false ∧ r.countdown = 0#8 ∧ r.deferrals = 0#8 ∧ r.staleReported = false)

/-- Every group is legal, and an entry holds a staged value only while its group is STAGING or SEALED (R9, R26). -/
def GroupsLegal (s : State) : Prop :=
  (∀ g, GroupLegal s.mode (s.group g))
    ∧ ∀ i v, s.entry i = some (.value v) → v.staged ≠ none → (s.group v.group).state ≠ .idle

/-- The claim is held only in CONFIG, by an ONLINE port (R143, R166). -/
def ClaimLegal (s : State) : Prop := ∀ p, s.claim = some p → s.mode = .config ∧ s.isOnline p = true

/-- A FAN is sound when every one of its targets is a defined VALUE entry of width 1 in the same group as the FAN (R14). -/
def FanSound (s : State) (f : FanEntry) : Prop :=
  ∀ i ∈ f.targets, ∃ v, s.entry i = some (.value v) ∧ v.width = 1 ∧ v.group = f.group

/-- Outside CONFIG every FAN is sound (R14). -/
def FansSound (s : State) : Prop := s.mode ≠ .config → ∀ i f, s.entry i = some (.fan f) → FanSound s f

/-- The VALUE entry that a read of an index shows: the entry itself, or the first target of a sound FAN (R16). -/
def ShownBy (s : State) (index : Byte) (v : ValueEntry) : Prop :=
  s.entry index = some (.value v)
    ∨ ∃ f first rest, s.entry index = some (.fan f) ∧ FanSound s f ∧ f.targets = first :: rest
        ∧ s.entry first = some (.value v)

/-- A bundle has no members or 2 to 16, and no group is in two bundles (R86). -/
def BundlesLegal (s : State) : Prop :=
  (∀ b g, inSet (s.bundle b) g = true → ∃ h, h ≠ g ∧ inSet (s.bundle b) h = true) ∧ ∀ b c, b ≠ c → s.bundle b &&& s.bundle c = 0#16

/-- The flywheel count is at most 3 and the period in its range (R122, R130). -/
def TimingBounded (s : State) : Prop :=
  s.timing.flywheel.toNat ≤ 3 ∧ 100 ≤ s.timing.period.toNat ∧ s.timing.period.toNat ≤ 1000000

/-! ### Work in flight between the blocks (R29, R79, R125, R126) -/

/-- The boundary that the commit unit works on: the first that it has not closed (R79). -/
def AtWork (s : State) (w : BoundaryWork) : Prop :=
  ∃ before after, s.boundaries = before ++ w :: after ∧ (∀ x ∈ before, x.closed = true) ∧ w.closed = false

/-- Once a STOP has ended RUNNING, and until the next start boundary, no boundary in RUNNING that is still in flight acts
any more (R29, R80, R150). -/
def StoppedWorkVoid (s : State) : Prop :=
  s.mode = .config ∨ s.mode = .starting ∨ s.mode = .stopping →
    ∀ w ∈ s.boundaries, w.kind = .run ∨ w.kind = .resume → w.void = true

/-- In CONFIG the last message under way to frame timing is that of an entry to CONFIG; and with no such message under way
nothing is reported in CONFIG, where frame timing is STOPPED, and the first report that mode control can take in STARTING
is a boundary with frame number 0 (R126, R136, R148, R153). -/
def ReportsFresh (s : State) : Prop :=
  (s.mode = .config → s.toTiming = [] ∨ s.toTiming.getLast? = some .enterConfig)
    ∧ (.enterConfig ∉ s.toTiming →
      (s.mode = .config → s.toMode = [] ∧ s.timing.state = .stopped)
        ∧ (s.mode = .starting →
          (s.toMode = [] ∧ (s.timing.state = .stopped ∨ s.timing.state = .first))
            ∨ s.toMode.head? = some (.boundary 0#16)))

/-- While RESET# is low every block holds its reset values (R156). -/
def HeldInReset (s : State) : Prop := s.resetLow = true → deviceReset s = s

/-- All of them together. -/
structure Sound (s : State) : Prop where
  queues : QueuesBounded s
  quiet : OfflineQuiet s
  responses : ResponsesFit s
  store : StoreAccounted s
  limits : LimitsHeld s
  epochs : EpochsOrdered s
  leases : LeasesOrdered s
  patience : PatienceHeld s
  obligations : ObligationsHeld s
  groups : GroupsLegal s
  claim : ClaimLegal s
  fans : FansSound s
  bundles : BundlesLegal s
  timing : TimingBounded s
  stopped : StoppedWorkVoid s
  reports : ReportsFresh s
  held : HeldInReset s

end Sys2Proof.Machine
end

