-- ==== Sys2Proof/Certificates/Slice0/Obligations.lean ====
section
/-! DEFINITION. The statements for the provers. Each says which rules of spec/ it formalises; where a clause rests on the
model's own choice, its docstring names the log entry. A response is compared with its data as the bytes of R176. -/

open Sys2Proof Sys2Proof.Machine

/-! ## One step, and the reset state -/

/-- A step takes the command at the front of the queue and runs its meaning on the state with the rest of the queue; with
nothing waiting the block idles (log entry 1). -/
def Obligations.StepTakesFrontCommand : Prop :=
  (∀ (c : Instr) (rest : List Instr) (s : State), step { s with pending := c :: rest } = exec c { s with pending := rest })
    ∧ ∀ s : State, step { s with pending := [] } = .next { s with pending := [] }

/-- The values after device reset that R8, R35, R78, R138, R140, R156, R158 and R164 give, block by block. -/
def Obligations.ResetHoldsManualValues : Prop :=
  State.reset.mode = .config ∧ State.reset.claim = none
    ∧ (∀ i, State.reset.entry i = none) ∧ State.reset.freeWords = 512
    ∧ (∀ g, State.reset.group g =
        { state := .idle, epoch := 0#16, lastCommitFrame := none, lastSealer := none, lessee := none, waitQueue := [],
          patience := 0#8, sealer := none, marked := false, countdown := 0#8, deferrals := 0#8, staleReported := false,
          subscriptions := ⟨.none, .none, .none, .none⟩, outstanding := ⟨false, false, false, false⟩, ackAge := 0#8,
          staleLimit := 8#8, ackDeadline := 0#8, patienceLimit := 0#8 })
    ∧ (∀ b, State.reset.bundle b = 0#16) ∧ State.reset.committedLast = 0#16 ∧ State.reset.commitLine = false
    ∧ State.reset.timing =
        { source := .internal, period := 20000#32, state := .stopped, lastBoundary := none, timer := none,
          flywheel := 0#8, earlySync := 0#16, frameNumber := 0#16, resumeArmed := false }
    ∧ ∀ p, State.reset.isOnline p = false ∧ (State.reset.portUnit p).sessionNumber = 0#8
        ∧ (State.reset.portUnit p).attention = false
        ∧ (State.reset.portUnit p).queue = [] ∧ (State.reset.portUnit p).attn = false
        ∧ responseBytes (State.reset.portUnit p).response = [0#8, 0#8, 0#8, crc8 [0#8, 0#8, 0#8]]

/-- The reset state meets every law of Safety.lean. -/
def Obligations.ResetMeetsEveryLaw : Prop := Sound State.reset

/-- The three causes of a device reset and its end (R155, R156, R157). Each block takes its reset values and the work in
flight is gone; a transaction in progress is lost whole. The level of RESET# is kept at power-up, and the model's clock and
queue are kept (log entry 12). The operation by which `HeldInReset` is said is that of a power-up. -/
def Obligations.DeviceResetRestoresEveryBlock : Prop :=
  (∀ s : State,
    exec .resetAssert s = .next
      { State.reset with
        ports := PerPort.ofFun fun q =>
          { PortUnit.reset with transaction := if (s.portUnit q).transaction = .idle then .idle else .lost }
        resetLow := true, now := s.now, pending := s.pending })
  ∧ (∀ s : State,
    exec .powerUp s = .next
      { State.reset with
        ports := PerPort.ofFun fun q =>
          { PortUnit.reset with transaction := if (s.portUnit q).transaction = .idle then .idle else .lost }
        resetLow := s.resetLow, now := s.now, pending := s.pending })
  ∧ (∀ s : State, exec .powerUp s = .next (deviceReset s))
  ∧ (∀ s : State, exec .resetRelease s = .next { s with resetLow := false })
  ∧ ∀ (p : Port) (tag : Byte) (s : State), Taken s p → s.mode = .config → s.claim = some p →
    exec (.resetDevice p tag) s = .next
      { State.reset with
        ports := PerPort.ofFun fun q =>
          { PortUnit.reset with
            transaction := if q = p ∨ (s.portUnit q).transaction = .idle then .idle else .lost }
        resetLow := false, now := s.now, pending := s.pending }

/-! ## Frames -/

/-- Reading a frame gives back the command it was made from, whatever 00h bytes lead it and whatever bytes follow it
(R159, R160, R161, R176, R179). The CRC-8 is the register of R177: FFh at first, and for each byte, from its most significant bit
down, shifted left and combined with 2Fh where the top bit and the data bit differ; so no run of 00h bytes has a CRC of 00h.
Each command has its code and its accepted argument lengths of R178, and no other code names one. -/
def Obligations.FramesReadBackAsTheirCommands : Prop :=
  (∀ (i : Instr) (p : Port) (c : Command) (tag : Byte) (args frame after : List Byte) (online : Bool) (fill : Nat),
    i.wf = true → i.parts = some (p, c, tag, args) → encodeFrame i = some frame →
    (online = true ∨ c = .join ∨ c = .status ∨ c = .nop) →
    decodeFrame p online (List.replicate fill 0#8 ++ frame ++ after) = some i)
  ∧ (
      let shift (register : Byte) (bit : Bool) : Byte :=
        if register.getLsbD 7 = bit then register + register else (register + register) ^^^ 0x2F#8
      crc8 [] = 0xFF#8
        ∧ (∀ bytes b, crc8 (bytes ++ [b]) =
            shift (shift (shift (shift (shift (shift (shift (shift (crc8 bytes) (b.getLsbD 7)) (b.getLsbD 6)) (b.getLsbD 5))
              (b.getLsbD 4)) (b.getLsbD 3)) (b.getLsbD 2)) (b.getLsbD 1)) (b.getLsbD 0))
        ∧ ∀ n, crc8 (List.replicate n 0#8) ≠ 0#8)
  ∧ (
      let table : List (Command × Byte × List Nat) :=
        [(.nop, 0x01#8, [0]), (.status, 0x02#8, [0]), (.join, 0x03#8, [1]), (.leave, 0x04#8, [0]), (.fetch, 0x05#8, [1]),
         (.claimConfig, 0x10#8, [0]), (.releaseConfig, 0x11#8, [0]), (.start, 0x12#8, [0]), (.stop, 0x13#8, [0]),
         (.resume, 0x14#8, [0]), (.resetDevice, 0x15#8, [0]), (.defineEntry, 0x20#8, [9, 13, 17, 21, 25, 29]),
         (.defineFan, 0x21#8, [3, 4, 5, 6, 7]), (.deleteEntry, 0x22#8, [1]), (.defineGroup, 0x23#8, [4]),
         (.defineBundle, 0x24#8, [1, 2, 3, 4, 5, 6, 7, 8, 9, 10, 11, 12, 13, 14, 15, 16, 17]), (.setFrame, 0x25#8, [5]),
         (.read, 0x30#8, [1]), (.readSet, 0x31#8, [1, 2, 3, 4, 5, 6, 7, 8]), (.groupStatus, 0x32#8, [1]),
         (.lease, 0x40#8, [1]), (.release, 0x41#8, [1]), (.stage, 0x42#8, [5, 9, 13, 17]), (.unstage, 0x43#8, [1]),
         (.seal, 0x44#8, [3]), (.unseal, 0x45#8, [1]), (.readStaged, 0x46#8, [1]), (.subscribe, 0x50#8, [2]),
         (.ack, 0x51#8, [3])]
      (∀ c, ∃ x ∈ table, x.1 = c)
        ∧ (∀ x ∈ table, x.1.code = x.2.1 ∧ commandOfCode x.2.1 = some x.1 ∧ ∀ L, x.1.accepts L = true ↔ L ∈ x.2.2)
        ∧ ∀ code, (∀ x ∈ table, x.2.1 ≠ code) → commandOfCode code = none)

/-! ## Port units (chapter 9) -/

/-- What a port unit does before any block takes a command. A transaction that a reset lost, or that ends while the part is held
in reset, takes no command and changes nothing but that it is over (R156, R157; log entry 5). By checks 6 and 7 of R161 an
OFFLINE port is answered OFFLINE to every command but JOIN, STATUS and NOP, whatever its arguments, and an argument length that
R178 does not list is answered ARGUMENT; nothing else changes, and only DEFINE_ENTRY and DELETE_ENTRY carry data, the free
count (R162, R166). -/
def Obligations.PortUnitAnswersBeforeAnyBlock : Prop :=
  (∀ (i : Instr) (p : Port) (s : State), portOf i = some p → i ≠ .csFalls p → ¬ Hears s p →
    exec i s = .next (transactionOver p s))
  ∧ (∀ (i : Instr) (p : Port) (c : Command) (tag : Byte) (args : List Byte) (s : State),
    i.parts = some (p, c, tag, args) → Hears s p →
    (s.isOnline p = false → ¬ (c = .join ∨ c = .status ∨ c = .nop) →
      exec i s = .next (answered p tag .offline (refusalData s c) s))
    ∧ ((s.isOnline p = true ∨ c = .join ∨ c = .status ∨ c = .nop) → c.accepts args.length = false →
      exec i s = .next (answered p tag .argument (refusalData s c) s)))

/-- A transaction whose frame the port unit refuses, check by check (R161, R162): the response buffer takes the refusal and
nothing else changes. The frame begins at the first byte that is not 00h (R159, R160); with no frame byte the transaction is a
pure read (R160). Bytes that pass the seven checks are no bad frame, and the row changes nothing (log entry 4). -/
def Obligations.BadFramesAnsweredCheckByCheck : Prop :=
  (∀ fill : Nat, frameBytes (List.replicate fill 0#8) = []
    ∧ ∀ code rest, code ≠ 0#8 → frameBytes (List.replicate fill 0#8 ++ code :: rest) = code :: rest)
  ∧ ∀ (p : Port) (mosi : List Byte) (s : State), Hears s p →
    (frameBytes mosi = [] → exec (.badframe p mosi) s = .next (transactionOver p s))
    ∧ (∀ code, frameBytes mosi = [code] →
        exec (.badframe p mosi) s = .next (answered p 0#8 .badFrame [0x01#8, 1#8] s))
    ∧ (∀ code tag, frameBytes mosi = [code, tag] →
        exec (.badframe p mosi) s = .next (answered p tag .badFrame [0x01#8, 2#8] s))
    ∧ ∀ code tag len rest, frameBytes mosi = code :: tag :: len :: rest →
        exec (.badframe p mosi) s = .next (
          let received := if 252 ≤ rest.length then 255#8 else BitVec.ofNat 8 (3 + rest.length)
          if 64 < len.toNat then answered p tag .badFrame [0x02#8, received] s
          else if rest.length < len.toNat + 1 then answered p tag .badFrame [0x01#8, received] s
          else if rest[len.toNat]? ≠ some (crc8 (code :: tag :: len :: rest.take len.toNat)) then
            answered p tag .badFrame [0x03#8, received] s
          else match commandOfCode code with
            | none => answered p tag .unknown [code] s
            | some c =>
              if s.isOnline p = false ∧ ¬ (c = .join ∨ c = .status ∨ c = .nop) then
                answered p tag .offline (refusalData s c) s
              else if c.accepts len.toNat = false then answered p tag .argument (refusalData s c) s
              else s)

/-- A pure read changes nothing but that the transaction is over (R160). When CS# falls, the port unit begins to shift out the
response it holds and then 00h (R159); while the part is held in reset it shifts out no response (R156); with a transaction
in progress CS# is low already and nothing changes (log entry 5). The bytes of a response are its tag, the code of its status
in 10.4, its data length, its data and the CRC-8 of all these (R177, R180). -/
def Obligations.ChipSelectShiftsHeldResponse : Prop :=
  (∀ (p : Port) (s : State), exec (.pureRead p) s = .next (transactionOver p s))
  ∧ (∀ (p : Port) (s : State), (s.portUnit p).transaction = .idle → s.resetLow = false →
      ∃ t, exec (.csFalls p) s = .next t
        ∧ t = s.setPort p { s.portUnit p with transaction := .shifting (s.portUnit p).response }
        ∧ ∀ n, (t.portUnit p).misoByte n = some ((responseBytes (s.portUnit p).response).getD n 0#8))
  ∧ (∀ (p : Port) (s : State), (s.portUnit p).transaction = .idle → s.resetLow = true →
      exec (.csFalls p) s = .next (s.setPort p { s.portUnit p with transaction := .lost }))
  ∧ (∀ (p : Port) (s : State), (s.portUnit p).transaction ≠ .idle → exec (.csFalls p) s = .next s)
  ∧ ∀ r : Response,
      let code : Byte := match r.status with
        | .ok => 0x00#8 | .queued => 0x01#8 | .clamped => 0x02#8 | .badFrame => 0x10#8 | .unknown => 0x11#8
        | .argument => 0x12#8 | .offline => 0x13#8 | .mode => 0x14#8 | .noLease => 0x15#8 | .busy => 0x16#8 | .range => 0x17#8
        | .denied => 0x18#8 | .noEntry => 0x19#8 | .already => 0x1A#8 | .notOwed => 0x1B#8 | .stale => 0x1C#8 | .late => 0x1D#8
        | .full => 0x1E#8 | .invalid => 0x1F#8 | .noClaim => 0x20#8
      let body := r.tag :: code :: BitVec.ofNat 8 r.data.length :: r.data
      responseBytes r = body ++ [crc8 body]

/-- NOP and STATUS are taken in every mode and session state and answered OK, and change nothing but the response buffer;
STATUS carries the 14 bytes of R183 (R175). -/
def Obligations.NopAndStatusAnsweredInEveryState : Prop :=
  ∀ (p : Port) (tag : Byte) (s : State), Hears s p →
    exec (.nop p tag) s = .next (answered p tag .ok [] s)
    ∧ exec (.status p tag) s = .next (answered p tag .ok
        ([modeCode s.mode, optionalPort s.claim]
          ++ [s.timing.frameNumber.extractLsb' 8 8, s.timing.frameNumber.extractLsb' 0 8, s.timing.flywheel]
          ++ [s.timing.earlySync.extractLsb' 8 8, s.timing.earlySync.extractLsb' 0 8, flagByte s.timing.resumeArmed]
          ++ [s.committedLast.extractLsb' 8 8, s.committedLast.extractLsb' 0 8]
          ++ [if s.isOnline p then 0x01#8 else 0x00#8, (s.portUnit p).sessionNumber, flagByte (s.portUnit p).attention,
              BitVec.ofNat 8 (s.portUnit p).queue.length]) s)

/-- JOIN opens a session at an OFFLINE port: ONLINE, the attention enable given, the session number one up with 255 followed by
1; at an ONLINE port it is answered ALREADY; a bad flag is answered ARGUMENT. Nothing else changes (R165). -/
def Obligations.JoinOpensSession : Prop :=
  ∀ (p : Port) (tag : Byte) (s : State), Hears s p →
    (∀ attention : Bool, s.isOnline p = false →
      exec (.join p tag (flagByte attention)) s = .next
        (let number := if (s.portUnit p).sessionNumber = 255#8 then 1#8 else (s.portUnit p).sessionNumber + 1#8
         answered p tag .ok [number, flagByte attention]
          (s.setPort p { s.portUnit p with session := .online, sessionNumber := number, attention := attention })))
    ∧ (∀ attention : Bool, s.isOnline p = true →
      exec (.join p tag (flagByte attention)) s = .next
        (answered p tag .already [(s.portUnit p).sessionNumber, flagByte (s.portUnit p).attention] s))
    ∧ ∀ b : Byte, b ≠ 0x00#8 → b ≠ 0x01#8 → exec (.join p tag b) s = .next (answered p tag .argument [] s)

/-- LEAVE closes the session in one happening (R37, R53, R118, R167). In every group the port is out of the wait queue, out of
the outstanding set and subscribed NONE; a lease it held passes to the head of the queue with LEASE_GRANTED, and a STAGING set
of a lease it held is discarded, while a SEALED one stays. The claim is given up if the port held it; the port is OFFLINE with
an empty queue, its session number kept. Every other field is unchanged. -/
def Obligations.LeaveClosesSession : Prop :=
  ∀ (p : Port) (tag : Byte) (s : State), Taken s p →
    ∃ t, exec (.leave p tag) s = .next t
      ∧ t = { s with
          claim := if s.claim = some p then none else s.claim
          entries := t.entries, groups := t.groups, ports := t.ports }
      ∧ (∀ g, t.group g =
          let r := s.group g
          let held : Bool := r.lessee == some p
          let waiting := r.waitQueue.filter (· != p)
          let kept : Group :=
            if held ∧ r.state = .staging then
              { r with
                state := .idle, sealer := none, marked := false, countdown := 0#8, deferrals := 0#8, staleReported := false }
            else r
          { kept with
            lessee := if held then waiting.head? else r.lessee
            waitQueue := if held then waiting.tail else waiting
            patience := if held then 0#8 else r.patience
            outstanding := r.outstanding.set p false
            subscriptions := r.subscriptions.set p .none })
      ∧ (∀ i, t.entry i =
          match s.entry i with
          | some (.value v) =>
            some (.value
              (if (s.group v.group).lessee = some p ∧ (s.group v.group).state = .staging then { v with staged := none } else v))
          | e => e)
      ∧ t.portUnit p =
          { s.portUnit p with
            session := .offline, attention := false, queue := [], transaction := .idle
            response := ⟨tag, .ok, [(s.portUnit p).sessionNumber, BitVec.ofNat 8 (s.portUnit p).queue.length]⟩ }
      ∧ ∀ q, q ≠ p →
          let inherited := allGroups.filter fun g =>
            (s.group g).lessee == some p && ((s.group g).waitQueue.filter (· != p)).head? == some q
          t.portUnit q =
            { s.portUnit q with
              queue :=
                if s.isOnline q then
                  inherited.foldl (fun queue g => enqueue queue (.leaseGranted g .leave) s.timing.frameNumber)
                    (s.portUnit q).queue
                else (s.portUnit q).queue }

/-- FETCH takes the n oldest notices, or all if fewer are held, n from 1 to 4, and answers with their number, the depth left
and their records; when it empties the queue ATTN# is deasserted; any other n is answered ARGUMENT. Nothing else changes
(R172). The record of each kind of notice is the 8 bytes of R184, with the codes of 10.4. -/
def Obligations.FetchTakesOldestNotices : Prop :=
  (∀ (p : Port) (tag n : Byte) (s : State), Taken s p →
    (1 ≤ n.toNat ∧ n.toNat ≤ 4 →
      ∀ taken kept, (s.portUnit p).queue = taken ++ kept → taken.length = min n.toNat (s.portUnit p).queue.length →
        ∃ t, exec (.fetch p tag n) s = .next t
          ∧ t = answered p tag .ok
              ([BitVec.ofNat 8 taken.length, BitVec.ofNat 8 kept.length] ++ taken.flatMap queuedRecord)
              (s.setPort p { s.portUnit p with queue := kept })
          ∧ (kept = [] → (t.portUnit p).attn = false))
    ∧ (¬ (1 ≤ n.toNat ∧ n.toNat ≤ 4) → exec (.fetch p tag n) s = .next (answered p tag .argument [] s)))
  ∧ ∀ (g : GroupId) (epoch frame : Half) (a b : Bool) (count : Byte) (new old : Mode),
      let bytes (kind group : Byte) (e : Half) (detailA detailB : Byte) : List Byte :=
        [kind, group, e.extractLsb' 8 8, e.extractLsb' 0 8, frame.extractLsb' 8 8, frame.extractLsb' 0 8, detailA, detailB]
      let of (n : Notice) : List Byte := queuedRecord (.notice n frame)
      let G : Byte := BitVec.ofNat 8 g.val
      let yes (f : Bool) : Byte := if f then 0x01#8 else 0x00#8
      let modeNumber (m : Mode) : Byte :=
        match m with | .config => 0x00#8 | .starting => 0x01#8 | .running => 0x02#8 | .stopping => 0x03#8 | .fault => 0x04#8
      of (.committed g epoch a b) = bytes 0x01#8 G epoch (yes a) (yes b)
        ∧ of (.leaseGranted g .release) = bytes 0x02#8 G 0#16 0x01#8 0x00#8
        ∧ of (.leaseGranted g .patience) = bytes 0x02#8 G 0#16 0x02#8 0x00#8
        ∧ of (.leaseGranted g .leave) = bytes 0x02#8 G 0#16 0x03#8 0x00#8
        ∧ of (.leaseLost g .patience a) = bytes 0x03#8 G 0#16 0x02#8 (yes a)
        ∧ of (.leaseLost g .stop a) = bytes 0x03#8 G 0#16 0x04#8 (yes a)
        ∧ of (.discarded g .patience a) = bytes 0x04#8 G 0#16 0x02#8 (yes a)
        ∧ of (.discarded g .stop a) = bytes 0x04#8 G 0#16 0x04#8 (yes a)
        ∧ of (.deferred g count .acks) = bytes 0x05#8 G 0#16 count 0x05#8
        ∧ of (.deferred g count .partner) = bytes 0x05#8 G 0#16 count 0x06#8
        ∧ of (.lapsed g epoch a count) = bytes 0x06#8 G epoch (yes a) count
        ∧ of (.frameSubstitute count) = bytes 0x07#8 0xFF#8 0#16 0x07#8 count
        ∧ of (.modeChange new old) = bytes 0x08#8 0xFF#8 0#16 (modeNumber new) (modeNumber old)
        ∧ queuedRecord (.overflow count frame) = bytes 0x09#8 0xFF#8 0#16 count 0x00#8

/-- The arrival of a notice at a port, by the notices its queue holds; at an OFFLINE port it is not queued. In every state the
arrival completes, with the state that `State.notify` gives (log entry 6). The notice carries the frame number in force (R137,
R170, R171). Nothing else changes, and a queue never comes to hold more than 32 notices or anything but OVERFLOW in its 32nd
place (R170). With 31 held the arrival is dropped also after a FETCH of 1 from a full queue, where R173 has it appended: that
side is the model's choice (log entry 19). Notices of one happening arrive in the order of its list (R171). ATTN# is asserted
exactly while the port is ONLINE, attention enable is yes and the queue holds a notice (R174). -/
def Obligations.NoticeArrivalByQueueDepth : Prop :=
  (∀ (queue : List QueuedNotice) (n : Notice) (frame : Half), QueueBounded queue → QueueBounded (enqueue queue n frame))
  ∧ ∀ (p : Port) (n : Notice) (s : State),
    (s.isOnline p = false → exec (.noticeArrival p n) s = .next s)
    ∧ (s.isOnline p = true → (s.portUnit p).queue.length ≤ 30 →
        exec (.noticeArrival p n) s = .next (s.setPort p
          { s.portUnit p with queue := (s.portUnit p).queue ++ [.notice n s.timing.frameNumber] }))
    ∧ (s.isOnline p = true → (s.portUnit p).queue.length = 31 →
        exec (.noticeArrival p n) s = .next (s.setPort p
          { s.portUnit p with queue := (s.portUnit p).queue ++ [.overflow 1#8 s.timing.frameNumber] }))
    ∧ (∀ older count frame, s.isOnline p = true → (s.portUnit p).queue = older ++ [.overflow count frame] →
        older.length = 31 →
        exec (.noticeArrival p n) s = .next (s.setPort p
          { s.portUnit p with
            queue := older ++ [.overflow (if count = 255#8 then 255#8 else count + 1#8) frame] }))
    ∧ exec (.noticeArrival p n) s = .next (s.notify p n)
    ∧ (∀ (rest : List Port) (of : Port → Notice),
        s.notifyEach [] of = s ∧ s.notifyEach (p :: rest) of = (s.notify p (of p)).notifyEach rest of)
    ∧ ((s.portUnit p).attn = true ↔
        s.isOnline p = true ∧ (s.portUnit p).attention = true ∧ (s.portUnit p).queue ≠ [])

/-! ## Mode control (chapter 8) -/

/-- CLAIM_CONFIG and RELEASE_CONFIG by the mode and the claim (R143, R144): the claim moves only in CONFIG, from absent to the
caller and from the caller to absent, and nothing else changes. That RELEASE_CONFIG answered OK carries no data is log entry 7
(R181). -/
def Obligations.ClaimIsTakenAndGivenUp : Prop :=
  ∀ (p : Port) (tag : Byte) (s : State), Taken s p →
    (s.mode ≠ .config →
      exec (.claimConfig p tag) s = .next (answered p tag .mode [] s)
      ∧ exec (.releaseConfig p tag) s = .next (answered p tag .mode [] s))
    ∧ (s.mode = .config → s.claim = none →
      exec (.claimConfig p tag) s = .next (answered p tag .ok [portByte p] { s with claim := some p })
      ∧ exec (.releaseConfig p tag) s = .next (answered p tag .noClaim [0xFF#8] s))
    ∧ (s.mode = .config → s.claim = some p →
      exec (.claimConfig p tag) s = .next (answered p tag .already [portByte p] s)
      ∧ exec (.releaseConfig p tag) s = .next (answered p tag .ok [] { s with claim := none }))
    ∧ ∀ q, q ≠ p → s.mode = .config → s.claim = some q →
      exec (.claimConfig p tag) s = .next (answered p tag .busy [portByte q] s)
      ∧ exec (.releaseConfig p tag) s = .next (answered p tag .noClaim [portByte q] s)

/-- The eight commands that need the claim are refused with MODE outside CONFIG and with NOCLAIM from a port that does not hold
it, before any check of their own, and change nothing; DEFINE_ENTRY and DELETE_ENTRY carry the free count (R3, R145). -/
def Obligations.LayoutCommandsNeedModeAndClaim : Prop :=
  ∀ (i : Instr) (p : Port) (c : Command) (tag : Byte) (args : List Byte) (s : State),
    i.parts = some (p, c, tag, args) → needsClaim c = true → c.accepts args.length = true → Taken s p →
    (s.mode ≠ .config → exec i s = .next (answered p tag .mode (refusalData s c) s))
    ∧ (s.mode = .config → s.claim ≠ some p → exec i s = .next (answered p tag .noClaim (refusalData s c) s))

/-- START from the claimant in CONFIG (R14, R146, R147): with every FAN sound the claim is given up, the mode is STARTING, MODE
goes to every ONLINE port and the START is on its way to frame timing; the data are the source and the period. With a FAN
that is not sound it is answered INVALID with the first such index, and nothing changes. -/
def Obligations.StartEntersStarting : Prop :=
  ∀ (p : Port) (tag : Byte) (s : State), Taken s p → s.mode = .config → s.claim = some p →
    ((∀ i f, s.entry i = some (.fan f) → FanSound s f) →
      exec (.start p tag) s = .next (answered p tag .ok
        ((match s.timing.source with | .internal => 0x00#8 | .external => 0x01#8) :: wordBytes s.timing.period)
        ({ s with mode := .starting, claim := none, toTiming := s.toTiming ++ [ModeMessage.start s.now] }.notifyEach
          [.p0, .p1, .p2, .p3] (fun _ => .modeChange .starting .config))))
    ∧ ∀ i f, s.entry i = some (.fan f) → ¬ FanSound s f →
      (∀ (j : Byte) (e : FanEntry), j.toNat < i.toNat → s.entry j = some (.fan e) → FanSound s e) →
      exec (.start p tag) s = .next (answered p tag .invalid [i] s)

/-- STOP by the mode (R149, R153): MODE in CONFIG, ALREADY in STOPPING, RUNNING to STOPPING with its MODE notices and what the
boundaries in flight still owe void (R29, R80, R150), and from STARTING and FAULT the entry to CONFIG with the teardown; the
data are the mode after the command. RESUME by the mode (R134, R152): in FAULT it sets resume-armed and answers OK, or ALREADY
if it was set, with the frame number and the flywheel count; in any other mode it is refused with MODE. Nothing else changes.
That a RESUME taken between the resume edge and the taking of its boundary arms the unit too is log entry 22. -/
def Obligations.StopAndResumeByMode : Prop :=
  (∀ (p : Port) (tag : Byte) (s : State), Taken s p →
    exec (.stop p tag) s = .next (match s.mode with
      | .config => answered p tag .mode [0x00#8] s
      | .stopping => answered p tag .already [0x03#8] s
      | .running => answered p tag .ok [0x03#8]
          ({ s with
              mode := .stopping
              boundaries := s.boundaries.map (fun w : BoundaryWork => { w with void := true }) }.notifyEach
            [.p0, .p1, .p2, .p3] (fun _ => .modeChange .stopping .running))
      | .starting | .fault => answered p tag .ok [0x00#8] (enterConfig s)))
  ∧ (∀ (p : Port) (tag : Byte) (s : State), Taken s p →
    (s.mode = .fault →
      exec (.resume p tag) s = .next (answered p tag (if s.timing.resumeArmed then .already else .ok)
        [s.timing.frameNumber.extractLsb' 8 8, s.timing.frameNumber.extractLsb' 0 8, s.timing.flywheel]
        { s with timing := { s.timing with resumeArmed := true } }))
    ∧ (s.mode ≠ .fault → exec (.resume p tag) s = .next (answered p tag .mode [] s)))

/-- What an entry to CONFIG leaves (R36, R153): the mode, a message to frame timing, and what boundaries in flight still owe
void (log entry 17); every group IDLE with a free lease, an empty queue, the sealed-set fields cleared, nothing owed and its
counters 0, its epoch, last commit frame, last sealer, subscriptions and parameters kept; no staged value; every port's
notices kept, and those of the teardown after them. Nothing else changes. -/
def Obligations.TeardownLeavesCleanGroups : Prop :=
  ∀ s : State,
    enterConfig s =
      { s with
        mode := .config, entries := (enterConfig s).entries, groups := (enterConfig s).groups
        ports := (enterConfig s).ports, boundaries := s.boundaries.map (fun w => { w with void := true })
        toTiming := s.toTiming ++ [.enterConfig] }
    ∧ (∀ g, (enterConfig s).group g =
        { s.group g with
          state := .idle, lessee := none, waitQueue := [], patience := 0#8, sealer := none, marked := false
          countdown := 0#8, deferrals := 0#8, staleReported := false
          outstanding := ⟨false, false, false, false⟩, ackAge := 0#8 })
    ∧ (∀ i, (enterConfig s).entry i =
        match s.entry i with
        | some (.value v) => some (.value { v with staged := none })
        | e => e)
    ∧ ∀ q, (enterConfig s).portUnit q =
        { s.portUnit q with
          queue :=
            if s.isOnline q then
              let sent := Notice.modeChange .config s.mode :: allGroups.flatMap fun g =>
                (if (s.group g).lessee = some q then [Notice.leaseLost g .stop false] else [])
                ++ ((s.group g).waitQueue.filter (· == q)).map (fun _ => Notice.leaseLost g .stop true)
                ++ (if (s.group g).state = .staging ∧ (s.group g).lessee = some q then [Notice.discarded g .stop false]
                    else if (s.group g).state = .sealed ∧ (s.group g).sealer = some q then [Notice.discarded g .stop true]
                    else [])
              sent.foldl (fun queue n => enqueue queue n s.timing.frameNumber) (s.portUnit q).queue
            else (s.portUnit q).queue }

/-- Mode control takes the next report of frame timing (R125, R133, R141): a start boundary enters RUNNING, a boundary in
RUNNING is handed on, a resume boundary enters RUNNING, a stop boundary enters CONFIG with the teardown, and a boundary in
CONFIG is ignored; a boundary handed on starts the work of the commit unit and, if it is one in RUNNING, sixteen patience
steps and sixteen ack steps. A report that frame timing made before it took the message of an entry to CONFIG is ignored in
every mode (R125, R153). A frame loss takes RUNNING to FAULT and STOPPING to CONFIG, and is ignored in CONFIG. A report of the
other kind, no report, or a frame loss in STARTING or FAULT, where it does not occur, leaves the rest as it is (log entries 2
and 14). -/
def Obligations.ModeControlTakesReports : Prop :=
  ∀ s : State,
    (∀ frame rest, s.toMode = .boundary frame :: rest →
      exec .boundaryTaken s = .next (
        let work (kind : BoundaryKind) (inRunning : Bool) : BoundaryWork :=
          { kind := kind, frame := frame, void := false, opened := false, closed := false, groupEvals := 0#16, bundleEvals := 0#4
            committed := 0#16
            patienceSteps := if inRunning then 0xFFFF#16 else 0#16
            ackSteps := if inRunning then 0xFFFF#16 else 0#16 }
        let u := { s with toMode := rest }
        if .enterConfig ∈ s.toTiming then u
        else match s.mode with
        | .config => u
        | .starting =>
          { u with mode := .running, boundaries := s.boundaries ++ [work .start false] }.notifyEach
            [.p0, .p1, .p2, .p3] (fun _ => .modeChange .running .starting)
        | .running => { u with boundaries := s.boundaries ++ [work .run true] }
        | .fault =>
          { u with mode := .running, boundaries := s.boundaries ++ [work .resume true] }.notifyEach
            [.p0, .p1, .p2, .p3] (fun _ => .modeChange .running .fault)
        | .stopping => { enterConfig u with boundaries := (enterConfig u).boundaries ++ [work .stop false] })
      ∧ exec .frameLoss s = .next s)
    ∧ (∀ rest, s.toMode = .frameLoss :: rest →
      exec .frameLoss s = .next (
        let u := { s with toMode := rest }
        if .enterConfig ∈ s.toTiming then u
        else match s.mode with
        | .running =>
          { u with mode := .fault }.notifyEach [.p0, .p1, .p2, .p3] (fun _ => .modeChange .fault .running)
        | .stopping => enterConfig u
        | .config | .starting | .fault => u)
      ∧ exec .boundaryTaken s = .next s)
    ∧ (s.toMode = [] → exec .boundaryTaken s = .next s ∧ exec .frameLoss s = .next s)

/-! ## The parameter table (chapter 1) -/

/-- DEFINE_ENTRY from the claimant in CONFIG. Without limits: a VALUE entry with the words given, nothing staged and entry epoch 0,
its width off the free count; ALREADY for a defined index and FULL where the store has no room; the data are the free count
after the command, and nothing else changes (R3, R11, R12). ARGUMENT for a group above 15, a width that is not 1 to 4, a
writer-set byte from 10h to FEh, a limits code above 04h, words that do not match the width, and limits with a width above 1
(R11, R176, R179). -/
def Obligations.DefineEntryWithoutLimits : Prop :=
  (∀ (p : Port) (tag index wb : Byte) (g : GroupId) (set : PortSet) (words : List Word) (s : State),
    Taken s p → s.mode = .config → s.claim = some p → WritersByte wb set → 1 ≤ words.length → words.length ≤ 4 →
    exec (.defineEntry p tag index (groupByte g) (BitVec.ofNat 8 words.length) wb 0x00#8 words) s = .next (
      if s.entry index ≠ none then answered p tag .already (countBytes s.freeWords) s
      else if s.freeWords < words.length then answered p tag .full (countBytes s.freeWords) s
      else answered p tag .ok (countBytes (s.freeWords - words.length))
        { s.setEntry index (some (.value
            { group := g, width := words.length, active := words, staged := none, epoch := 0#16, writers := set,
              limits := none })) with
          freeWords := s.freeWords - words.length }))
  ∧ (∀ (p : Port) (tag index group width wb code : Byte) (words : List Word) (s : State),
    Taken s p → s.mode = .config → s.claim = some p → 1 ≤ words.length → words.length ≤ 6 →
    (16 ≤ group.toNat ∨ width = 0#8 ∨ 5 ≤ width.toNat ∨ (16 ≤ wb.toNat ∧ wb ≠ 0xFF#8) ∨ 5 ≤ code.toNat
      ∨ (code = 0x00#8 ∧ words.length ≠ width.toNat)
      ∨ (code ≠ 0x00#8 ∧ (words.length ≠ width.toNat + 2 ∨ 2 ≤ width.toNat))) →
    exec (.defineEntry p tag index group width wb code words) s =
      .next (answered p tag .argument (countBytes s.freeWords) s))

/-- DEFINE_ENTRY with limits, of width 1: min not greater than max in the limits' kind; the initial word outside them is answered
RANGE after ALREADY and before FULL (R5, R11, R12, R179). -/
def Obligations.DefineEntryWithLimits : Prop :=
  ∀ (p : Port) (tag index wb code : Byte) (g : GroupId) (set : PortSet) (min max w : Word) (signed clamps : Bool) (s : State),
    Taken s p → s.mode = .config → s.claim = some p → WritersByte wb set →
    code = (if signed then (if clamps then 0x04#8 else 0x03#8) else (if clamps then 0x02#8 else 0x01#8)) →
    let le (a b : Word) : Prop := if signed then a.toInt ≤ b.toInt else a.toNat ≤ b.toNat
    let free := countBytes s.freeWords
    (¬ le min max → exec (.defineEntry p tag index (groupByte g) 1#8 wb code [min, max, w]) s =
      .next (answered p tag .argument free s))
    ∧ (le min max → s.entry index ≠ none →
      exec (.defineEntry p tag index (groupByte g) 1#8 wb code [min, max, w]) s = .next (answered p tag .already free s))
    ∧ (le min max → s.entry index = none → ¬ (le min w ∧ le w max) →
      exec (.defineEntry p tag index (groupByte g) 1#8 wb code [min, max, w]) s = .next (answered p tag .range free s))
    ∧ (le min max → s.entry index = none → le min w → le w max → s.freeWords = 0 →
      exec (.defineEntry p tag index (groupByte g) 1#8 wb code [min, max, w]) s = .next (answered p tag .full free s))
    ∧ (le min max → s.entry index = none → le min w → le w max → 1 ≤ s.freeWords →
      exec (.defineEntry p tag index (groupByte g) 1#8 wb code [min, max, w]) s = .next
        (answered p tag .ok (countBytes (s.freeWords - 1))
          { s.setEntry index (some (.value
              { group := g, width := 1, active := [w], staged := none, epoch := 0#16, writers := set,
                limits := some ⟨if signed then .signed else .unsigned, min, max, if clamps then .clamp else .refuse⟩ })) with
            freeWords := s.freeWords - 1 }))

/-- DEFINE_FAN from the claimant in CONFIG: ARGUMENT, ALREADY, or the FAN defined with its targets as given and not checked; no
data (R13). DELETE_ENTRY: NOENTRY with the index and the free count, or the index undefined, a VALUE entry's words back in the
free count, which the data carry (R3, R15; the layout of NOENTRY is log entry 7). Nothing else changes. -/
def Obligations.FansDefinedAndEntriesDeleted : Prop :=
  (∀ (p : Port) (tag index group wb : Byte) (targets : List Byte) (s : State),
    Taken s p → s.mode = .config → s.claim = some p → targets.length ≤ 4 →
    (16 ≤ group.toNat ∨ (16 ≤ wb.toNat ∧ wb ≠ 0xFF#8) ∨ targets = [] ∨ ¬ targets.Nodup ∨ index ∈ targets →
      exec (.defineFan p tag index group wb targets) s = .next (answered p tag .argument [] s))
    ∧ ∀ (g : GroupId) (set : PortSet), group = groupByte g → WritersByte wb set →
        targets ≠ [] → targets.Nodup → index ∉ targets →
        exec (.defineFan p tag index group wb targets) s = .next (
          if s.entry index ≠ none then answered p tag .already [] s
          else answered p tag .ok [] (s.setEntry index (some (.fan ⟨g, set, targets⟩)))))
  ∧ (∀ (p : Port) (tag index : Byte) (s : State), Taken s p → s.mode = .config → s.claim = some p →
    exec (.deleteEntry p tag index) s = .next (
      match s.entry index with
      | none => answered p tag .noEntry (index :: countBytes s.freeWords) s
      | some (.value v) =>
        answered p tag .ok (countBytes (s.freeWords + v.width))
          { s.setEntry index none with freeWords := s.freeWords + v.width }
      | some (.fan _) => answered p tag .ok (countBytes s.freeWords) (s.setEntry index none)))

/-- READ shows a VALUE entry's width, active words, entry epoch and group epoch, a sound FAN's first target in the same way, and
answers NOENTRY for an undefined index and INVALID for a FAN that is not sound; it never shows a staged value and changes
nothing (R14, R16, R182). -/
def Obligations.ReadShowsActiveValue : Prop :=
  ∀ (p : Port) (tag index : Byte) (s : State), Taken s p →
    (s.entry index = none → exec (.read p tag index) s = .next (answered p tag .noEntry [index] s))
    ∧ (∀ v, s.entry index = some (.value v) →
      exec (.read p tag index) s = .next (answered p tag .ok
        (BitVec.ofNat 8 v.width :: wordsBytes v.active ++ halfBytes v.epoch ++ halfBytes (s.group v.group).epoch) s))
    ∧ (∀ f first more v, s.entry index = some (.fan f) → f.targets = first :: more → s.entry first = some (.value v) →
      FanSound s f →
      exec (.read p tag index) s = .next (answered p tag .ok
        (1#8 :: wordsBytes v.active ++ halfBytes v.epoch ++ halfBytes (s.group f.group).epoch) s))
    ∧ ∀ f, s.entry index = some (.fan f) → ¬ FanSound s f →
      exec (.read p tag index) s = .next (answered p tag .invalid [index] s)

/-- READ_SET answers with one item for each index of the list, the active words, the entry epoch and the group epoch that READ
shows (R16), after a map of the widths that is left out when every width is 4; the first index that is undefined or names a FAN
that is not sound decides the response instead. Nothing changes (R17, R182). The map is (k + 3) / 4 bytes: a 2-bit code for each
item from the most significant bits down, the rest zero (R182). -/
def Obligations.ReadSetShowsEveryItem : Prop :=
  (∀ (p : Port) (tag : Byte) (indices : List Byte) (s : State), Taken s p → 1 ≤ indices.length → indices.length ≤ 8 →
    (∀ shown : List (Byte × ValueEntry), indices = shown.map (·.1) → (∀ x ∈ shown, ShownBy s x.1 x.2) →
      exec (.readSet p tag indices) s = .next (answered p tag .ok
        ((if ∀ x ∈ shown, x.2.width = 4 then [] else widthMap (shown.map (·.2.width)))
          ++ shown.flatMap (fun x => wordsBytes x.2.active ++ halfBytes x.2.epoch ++ halfBytes (s.group x.2.group).epoch)) s))
    ∧ ∀ before i after, indices = before ++ i :: after → (∀ j ∈ before, ∃ v, ShownBy s j v) →
      (s.entry i = none → exec (.readSet p tag indices) s = .next (answered p tag .noEntry [i] s))
      ∧ ∀ f, s.entry i = some (.fan f) → ¬ FanSound s f →
        exec (.readSet p tag indices) s = .next (answered p tag .invalid [i] s))
  ∧ (∀ widths : List Nat, (∀ w ∈ widths, 1 ≤ w ∧ w ≤ 4) →
    (widthMap widths).length = (widths.length + 3) / 4
    ∧ ∀ j b, (widthMap widths)[j / 4]? = some b →
        b.extractLsb' (6 - 2 * (j % 4)) 2 =
          (match widths[j]? with | some w => BitVec.ofNat 2 (w - 1) | none => 0#2))

/-! ## Group control: records, subscriptions, acknowledgments (chapters 2 and 6) -/

/-- DEFINE_GROUP by the mode, the claim and the arguments: the group's three parameters replaced, and no other field (R34). -/
def Obligations.DefineGroupReplacesParameters : Prop :=
  ∀ (p : Port) (tag group staleLimit ackDeadline patienceLimit : Byte) (s : State), Taken s p →
    (s.mode ≠ .config →
      exec (.defineGroup p tag group staleLimit ackDeadline patienceLimit) s = .next (answered p tag .mode [] s))
    ∧ (s.mode = .config → s.claim ≠ some p →
      exec (.defineGroup p tag group staleLimit ackDeadline patienceLimit) s = .next (answered p tag .noClaim [] s))
    ∧ (s.mode = .config → s.claim = some p → 16 ≤ group.toNat ∨ staleLimit = 0#8 →
      exec (.defineGroup p tag group staleLimit ackDeadline patienceLimit) s = .next (answered p tag .argument [] s))
    ∧ ∀ g : GroupId, group = groupByte g → s.mode = .config → s.claim = some p → staleLimit ≠ 0#8 →
      exec (.defineGroup p tag group staleLimit ackDeadline patienceLimit) s = .next
        (answered p tag .ok [groupByte g, staleLimit, ackDeadline, patienceLimit]
          (s.setGroup g
            { s.group g with staleLimit := staleLimit, ackDeadline := ackDeadline, patienceLimit := patienceLimit }))

/-- GROUP_STATUS, taken in every mode, carries the 34 bytes of R183 and changes nothing; a group above 15 is answered ARGUMENT
(R38). The entry count is of the entries of the group, VALUE and FAN together, the staged count of its VALUE entries that hold
a staged value (R38). The encodings that this and the other statements name are those of R176 and 10.4: a flag, a port, a
group, a set of ports by bits 0 to 3, a set of groups or bundles by bit n, numbers most significant byte first, and the codes
of modes, group states and subscriptions. -/
def Obligations.GroupStatusShowsRecord : Prop :=
  (∀ (p : Port) (tag : Byte) (s : State), Taken s p →
    (∀ group : Byte, 16 ≤ group.toNat → exec (.groupStatus p tag group) s = .next (answered p tag .argument [] s))
    ∧ ∀ (g : GroupId) (bundle : Byte),
      ((∃ b : BundleId, inSet (s.bundle b) g = true ∧ (∀ c, inSet (s.bundle c) g = true → c = b)
          ∧ bundle = BitVec.ofNat 8 b.val)
        ∨ ((∀ b, inSet (s.bundle b) g = false) ∧ bundle = 0xFF#8)) →
      let r := s.group g
      let entries := s.entries.toList.countP (belongsTo g)
      let staged := s.entries.toList.countP (stagedIn g)
      let place (k : Nat) : Byte := optionalPort r.waitQueue[k]?
      let data :=
        [groupByte g, groupStateCode r.state, r.epoch.extractLsb' 8 8, r.epoch.extractLsb' 0 8]
          ++ (match r.lastCommitFrame with
              | none => [0#8, 0#8, 0#8]
              | some f => [1#8, f.extractLsb' 8 8, f.extractLsb' 0 8])
          ++ [optionalPort r.lastSealer, optionalPort r.lessee, BitVec.ofNat 8 r.waitQueue.length, place 0, place 1, place 2,
              r.patience, optionalPort r.sealer, flagByte r.marked, r.countdown, r.deferrals, flagByte r.staleReported,
              subscriptionCode r.subscriptions.p0, subscriptionCode r.subscriptions.p1, subscriptionCode r.subscriptions.p2,
              subscriptionCode r.subscriptions.p3, subscriptionCode (r.subscriptions.get p), portSetByte r.outstanding,
              r.ackAge, r.staleLimit, r.ackDeadline, r.patienceLimit, bundle]
          ++ halfBytes (BitVec.ofNat 16 entries) ++ halfBytes (BitVec.ofNat 16 staged)
      data.length = 34 ∧ exec (.groupStatus p tag (groupByte g)) s = .next (answered p tag .ok data s))
  ∧ (∀ (g : GroupId) (v : ValueEntry) (f : FanEntry),
    (belongsTo g (some (.value v)) = true ↔ v.group = g) ∧ (belongsTo g (some (.fan f)) = true ↔ f.group = g)
      ∧ belongsTo g none = false
      ∧ (stagedIn g (some (.value v)) = true ↔ v.group = g ∧ v.staged ≠ none)
      ∧ stagedIn g (some (.fan f)) = false ∧ stagedIn g none = false
      ∧ (Entry.value v).group = v.group ∧ (Entry.fan f).group = f.group)
  ∧ (∀ (s : State) (g : GroupId), stagedCount s g = s.entries.toList.countP (stagedIn g))
  ∧ (flagByte false = 0x00#8 ∧ flagByte true = 0x01#8
    ∧ portByte .p0 = 0x00#8 ∧ portByte .p1 = 0x01#8 ∧ portByte .p2 = 0x02#8 ∧ portByte .p3 = 0x03#8
    ∧ optionalPort none = 0xFF#8 ∧ (∀ p, optionalPort (some p) = portByte p)
    ∧ (∀ g : GroupId, groupByte g = BitVec.ofNat 8 g.val)
    ∧ (∀ set : PortSet,
        (portSetByte set).getLsbD 0 = set.get .p0 ∧ (portSetByte set).getLsbD 1 = set.get .p1
          ∧ (portSetByte set).getLsbD 2 = set.get .p2 ∧ (portSetByte set).getLsbD 3 = set.get .p3
          ∧ (portSetByte set).extractLsb' 4 4 = 0#4)
    ∧ groupStateCode .idle = 0x00#8 ∧ groupStateCode .staging = 0x01#8 ∧ groupStateCode .sealed = 0x02#8
    ∧ subscriptionCode .none = 0x00#8 ∧ subscriptionCode .observe = 0x01#8 ∧ subscriptionCode .ackAll = 0x02#8
    ∧ subscriptionCode .ackMarked = 0x03#8 ∧ subscriptionCode .lapsed = 0x04#8
    ∧ modeCode .config = 0x00#8 ∧ modeCode .starting = 0x01#8 ∧ modeCode .running = 0x02#8 ∧ modeCode .stopping = 0x03#8
    ∧ modeCode .fault = 0x04#8)
  ∧ ((∀ h : Half, halfBytes h = [h.extractLsb' 8 8, h.extractLsb' 0 8])
    ∧ (∀ w : Word, wordBytes w = [w.extractLsb' 24 8, w.extractLsb' 16 8, w.extractLsb' 8 8, w.extractLsb' 0 8])
    ∧ (∀ words : List Word, wordsBytes words = words.flatMap wordBytes)
    ∧ ∀ n : Nat, countBytes n = halfBytes (BitVec.ofNat 16 n))
  ∧ ∀ (n : Nat) (set : BitVec n) (i j : Fin n),
    inSet set i = set.getLsbD i.val ∧ (inSet (addTo set i) j = true ↔ inSet set j = true ∨ j = i)
      ∧ (inSet (dropFrom set i) j = true ↔ inSet set j = true ∧ j ≠ i)

/-- SUBSCRIBE, taken in every mode: the caller's subscription becomes the mode given; NONE and OBSERVE take the caller out of the
outstanding set and the acknowledgment modes leave it as it is; the data are the group, the subscription before and after,
"released" and "owes". A group above 15 or a mode that is not NONE, OBSERVE, ACK_ALL or ACK_MARKED is answered ARGUMENT.
Nothing else changes (R103, R104). -/
def Obligations.SubscribeChangesOwnSubscription : Prop :=
  ∀ (p : Port) (tag group mode : Byte) (s : State), Taken s p →
    (16 ≤ group.toNat ∨ 4 ≤ mode.toNat → exec (.subscribe p tag group mode) s = .next (answered p tag .argument [] s))
    ∧ ∀ (g : GroupId) (new : Subscription), group = groupByte g → new ≠ .lapsed → mode = subscriptionCode new →
      let r := s.group g
      let inSetBefore := r.outstanding.get p
      let acknowledges : Bool := new == .ackAll || new == .ackMarked
      exec (.subscribe p tag group mode) s = .next
        (answered p tag .ok
          [group, subscriptionCode (r.subscriptions.get p), mode, flagByte (inSetBefore && !acknowledges),
           flagByte (inSetBefore && acknowledges)]
          (s.setGroup g
            { r with
              subscriptions := r.subscriptions.set p new
              outstanding := r.outstanding.set p (inSetBefore && acknowledges) }))

/-- ACK by the mode, the group and the caller's standing: OK takes the caller out of the outstanding set and changes nothing else;
STALE and NOTOWED change nothing. The epoch is compared for equality only. The data are the group, its epoch, the caller's
subscription and the outstanding set after the command (R109, R110). -/
def Obligations.AckRemovesCallerForCurrentEpoch : Prop :=
  ∀ (p : Port) (tag group : Byte) (epoch : Half) (s : State), Taken s p →
    (s.mode = .config ∨ s.mode = .starting → exec (.ack p tag group epoch) s = .next (answered p tag .mode [] s))
    ∧ (s.mode ≠ .config → s.mode ≠ .starting → 16 ≤ group.toNat →
      exec (.ack p tag group epoch) s = .next (answered p tag .argument [] s))
    ∧ ∀ g : GroupId, group = groupByte g → s.mode ≠ .config → s.mode ≠ .starting →
      let r := s.group g
      let data (owing : PortSet) : List Byte :=
        [group, r.epoch.extractLsb' 8 8, r.epoch.extractLsb' 0 8, subscriptionCode (r.subscriptions.get p), portSetByte owing]
      (r.outstanding.get p = false →
        exec (.ack p tag group epoch) s = .next (answered p tag .notOwed (data r.outstanding) s))
      ∧ (r.outstanding.get p = true → epoch ≠ r.epoch →
        exec (.ack p tag group epoch) s = .next (answered p tag .stale (data r.outstanding) s))
      ∧ (r.outstanding.get p = true → epoch = r.epoch →
        exec (.ack p tag group epoch) s = .next
          (answered p tag .ok (data (r.outstanding.set p false))
            (s.setGroup g { r with outstanding := r.outstanding.set p false })))

/-! ## Writer leases (chapter 3) -/

/-- LEASE is taken in RUNNING and FAULT and otherwise refused with MODE, then with ARGUMENT for a group above 15 (R41); then by the
caller's standing in the group: a free lease goes to the caller, the lessee and a waiting port are answered ALREADY, and any
other port is appended to the wait queue. The data are the group, the lessee and the caller's place after the command. Nothing
else changes (R42). -/
def Obligations.LeaseByModeAndStanding : Prop :=
  (∀ (p : Port) (tag group : Byte) (s : State), Taken s p →
    (s.mode ≠ .running → s.mode ≠ .fault → exec (.lease p tag group) s = .next (answered p tag .mode [] s))
    ∧ (s.mode = .running ∨ s.mode = .fault → 16 ≤ group.toNat →
      exec (.lease p tag group) s = .next (answered p tag .argument [] s)))
  ∧ ∀ (p : Port) (tag : Byte) (g : GroupId) (s : State), Taken s p → s.mode = .running ∨ s.mode = .fault →
    let r := s.group g
    (r.lessee = none →
      exec (.lease p tag (groupByte g)) s = .next
        (answered p tag .ok [groupByte g, portByte p, 0#8] (s.setGroup g { r with lessee := some p, patience := 0#8 })))
    ∧ (r.lessee = some p →
      exec (.lease p tag (groupByte g)) s = .next (answered p tag .already [groupByte g, portByte p, 0#8] s))
    ∧ (∀ q ahead behind, r.lessee = some q → q ≠ p → r.waitQueue = ahead ++ p :: behind → p ∉ ahead →
      exec (.lease p tag (groupByte g)) s = .next
        (answered p tag .already [groupByte g, portByte q, BitVec.ofNat 8 (ahead.length + 1)] s))
    ∧ ∀ q, r.lessee = some q → q ≠ p → p ∉ r.waitQueue →
      exec (.lease p tag (groupByte g)) s = .next
        (answered p tag .queued [groupByte g, portByte q, BitVec.ofNat 8 (r.waitQueue.length + 1)]
          (s.setGroup g { r with waitQueue := r.waitQueue ++ [p] }))

/-- RELEASE by the lessee (R43, R45, R72): a STAGING set is discarded, an IDLE group and a SEALED set stay as they are; the lease
goes to the head of the wait queue, which receives LEASE_GRANTED, or becomes free, and the counter is 0. The discard: no entry
of the group holds a staged value, the group is IDLE with its sealed-set fields cleared, and nothing else changes: the active
values, the epochs and the outstanding set stay (R21, R24, R72). -/
def Obligations.ReleaseByLesseePassesLease : Prop :=
  (∀ (p : Port) (tag : Byte) (g : GroupId) (s : State), Taken s p → s.mode ≠ .config → s.mode ≠ .starting →
    (s.group g).lessee = some p →
    let discards : Bool := (s.group g).state == .staging
    let u := if discards then discardSet g s else s
    ((s.group g).waitQueue = [] →
      exec (.release p tag (groupByte g)) s = .next
        (answered p tag .ok [groupByte g, 0xFF#8, 0xFF#8, flagByte discards]
          (u.setGroup g { u.group g with lessee := none, patience := 0#8 })))
    ∧ ∀ q rest, (s.group g).waitQueue = q :: rest →
      exec (.release p tag (groupByte g)) s = .next
        (answered p tag .ok [groupByte g, portByte q, 0xFF#8, flagByte discards]
          ((u.setGroup g { u.group g with lessee := some q, waitQueue := rest, patience := 0#8 }).notify q
            (.leaseGranted g .release))))
  ∧ (∀ (g : GroupId) (s : State),
    discardSet g s = { s with entries := (discardSet g s).entries, groups := (discardSet g s).groups }
    ∧ (∀ h, (discardSet g s).group h =
        if h = g then
          { s.group g with
            state := .idle, sealer := none, marked := false, countdown := 0#8, deferrals := 0#8, staleReported := false }
        else s.group h)
    ∧ ∀ i, (discardSet g s).entry i =
        match s.entry i with
        | some (.value v) => some (.value (if v.group = g then { v with staged := none } else v))
        | e => e)

/-- RELEASE by a port that is not the lessee (R44): a waiting port leaves the queue, in which the order is kept, and is answered
OK; a port that is neither is answered NOLEASE; the lessee and the counter do not change, no notice is sent and nothing else
changes. In CONFIG and STARTING every RELEASE is refused with MODE, and otherwise with ARGUMENT for a group above 15 (R41). -/
def Obligations.ReleaseByOthersLeavesLease : Prop :=
  (∀ (p : Port) (tag group : Byte) (s : State), Taken s p →
    (s.mode = .config ∨ s.mode = .starting → exec (.release p tag group) s = .next (answered p tag .mode [] s))
    ∧ (s.mode ≠ .config → s.mode ≠ .starting → 16 ≤ group.toNat →
      exec (.release p tag group) s = .next (answered p tag .argument [] s)))
  ∧ ∀ (p : Port) (tag : Byte) (g : GroupId) (s : State), Taken s p →
    let r := s.group g
    (∀ ahead behind, s.mode ≠ .config → s.mode ≠ .starting → r.lessee ≠ some p →
      r.waitQueue = ahead ++ p :: behind → p ∉ ahead → p ∉ behind →
      exec (.release p tag (groupByte g)) s = .next
        (answered p tag .ok [groupByte g, optionalPort r.lessee, 0xFF#8]
          (s.setGroup g { r with waitQueue := ahead ++ behind })))
    ∧ (s.mode ≠ .config → s.mode ≠ .starting → r.lessee ≠ some p → p ∉ r.waitQueue →
      exec (.release p tag (groupByte g)) s = .next
        (answered p tag .noLease [groupByte g, optionalPort r.lessee, 0xFF#8] s))

/-! ## Staging and sealing (chapter 4) -/

/-- The checks that STAGE, UNSTAGE, SEAL, UNSEAL and READ_STAGED share, in their order (R56, R57): the mode, the arguments of SEAL
and UNSEAL, the entry, the lease; then BUSY in SEALED for STAGE, UNSTAGE and SEAL (R58). A refused command changes nothing. -/
def Obligations.WriterCommandsCheckedInOrder : Prop :=
  ∀ (p : Port) (tag : Byte) (s : State) (i : Instr), Taken s p →
    ((∀ index, i = .unstage p tag index ∨ (∃ words, i = .stage p tag index words ∧ 1 ≤ words.length ∧ words.length ≤ 4)
        ∨ i = .readStaged p tag index →
      let takenIn : Bool := s.mode == .running || s.mode == .fault || (i == .readStaged p tag index && s.mode == .stopping)
      (takenIn = false → exec i s = .next (answered p tag .mode [] s))
      ∧ (takenIn = true → s.entry index = none → exec i s = .next (answered p tag .noEntry [index] s))
      ∧ ∀ e, takenIn = true → s.entry index = some e →
        ((s.group e.group).lessee ≠ some p →
          exec i s = .next (answered p tag .noLease [groupByte e.group, optionalPort (s.group e.group).lessee] s))
        ∧ ((s.group e.group).lessee = some p → (s.group e.group).state = .sealed → i ≠ .readStaged p tag index →
          exec i s = .next
            (answered p tag .busy [groupByte e.group, 0x02#8, optionalPort (s.group e.group).sealer] s))))
    ∧ (∀ group delay marked, i = .seal p tag group delay marked →
      (s.mode ≠ .running → s.mode ≠ .fault → exec i s = .next (answered p tag .mode [] s))
      ∧ (s.mode = .running ∨ s.mode = .fault → 16 ≤ group.toNat ∨ 16 ≤ delay.toNat ∨ 2 ≤ marked.toNat →
        exec i s = .next (answered p tag .argument [] s))
      ∧ ∀ g : GroupId, group = groupByte g → s.mode = .running ∨ s.mode = .fault → delay.toNat ≤ 15 → marked.toNat ≤ 1 →
        ((s.group g).lessee ≠ some p →
          exec i s = .next (answered p tag .noLease [group, optionalPort (s.group g).lessee] s))
        ∧ ((s.group g).lessee = some p → (s.group g).state = .sealed →
          exec i s = .next (answered p tag .busy [group, 0x02#8, optionalPort (s.group g).sealer] s)))
    ∧ ∀ group, i = .unseal p tag group →
      (s.mode ≠ .running → s.mode ≠ .fault → exec i s = .next (answered p tag .mode [] s))
      ∧ (s.mode = .running ∨ s.mode = .fault → 16 ≤ group.toNat → exec i s = .next (answered p tag .argument [] s))
      ∧ ∀ g : GroupId, group = groupByte g → s.mode = .running ∨ s.mode = .fault → (s.group g).lessee ≠ some p →
        exec i s = .next (answered p tag .noLease [group, optionalPort (s.group g).lessee] s)

/-- STAGE of a VALUE entry by the lessee, the group not SEALED (R5, R6, R19, R58): ARGUMENT for a wrong number of words, DENIED
outside the writer set, RANGE or a clamped word outside the limits. An accepted STAGE replaces the entry's staged words, makes
the group STAGING and clears the counter, and changes nothing else. The data are the index, the list of words and the staged
count after the command (log entry 7). -/
def Obligations.StageOfValueEntry : Prop :=
  ∀ (p : Port) (tag index : Byte) (words : List Word) (v : ValueEntry) (s : State),
    Taken s p → s.mode = .running ∨ s.mode = .fault → s.entry index = some (.value v) →
    (s.group v.group).lessee = some p → (s.group v.group).state ≠ .sealed → 1 ≤ words.length → words.length ≤ 4 →
    let accepted (status : Status) (staged : List Word) : State :=
      let t := (s.setEntry index (some (.value { v with staged := some staged }))).setGroup v.group
        { s.group v.group with state := .staging, patience := 0#8 }
      answered p tag status
        (index :: BitVec.ofNat 8 staged.length :: wordsBytes staged ++ halfBytes (BitVec.ofNat 16 (stagedCount t v.group))) t
    (words.length ≠ v.width → exec (.stage p tag index words) s = .next (answered p tag .argument [] s))
    ∧ (words.length = v.width → v.writers.get p = false →
      exec (.stage p tag index words) s = .next (answered p tag .denied [] s))
    ∧ (words.length = v.width → v.writers.get p = true → v.limits = none →
      exec (.stage p tag index words) s = .next (accepted .ok words))
    ∧ ∀ l w, words = [w] → v.width = 1 → v.writers.get p = true → v.limits = some l →
      exec (.stage p tag index words) s = .next (
        if l.kind.le l.min w = true ∧ l.kind.le w l.max = true then accepted .ok [w]
        else if l.policy = .refuse then answered p tag .range [] s
        else if l.kind.le l.min w = false then accepted .clamped [l.min]
        else accepted .clamped [l.max])

/-- STAGE of a sound FAN by the lessee, the group not SEALED (R20, R58): ARGUMENT for more than one word, DENIED with the FAN's
index outside its own writer set, and the first target that fails answers DENIED or RANGE with its index, nothing staged. With
none failing, the word, or the limit it is clamped to, is staged into every target and into nothing else. The data are the
targets with their words, then the staged count (log entry 7). What limits do to one word (R5): none, or a word within them,
admit it; outside them REFUSE admits none and CLAMP gives min for a word below and max for a word above, compared in the
limits' kind. -/
def Obligations.StageOfFanEntry : Prop :=
  (∀ (p : Port) (tag index : Byte) (words : List Word) (f : FanEntry) (targets : List (Byte × ValueEntry)) (s : State),
    Taken s p → s.mode = .running ∨ s.mode = .fault → s.entry index = some (.fan f) →
    (s.group f.group).lessee = some p → (s.group f.group).state ≠ .sealed → 1 ≤ words.length → words.length ≤ 4 →
    f.targets = targets.map (·.1) →
    (∀ x ∈ targets, s.entry x.1 = some (.value x.2) ∧ x.2.width = 1 ∧ x.2.group = f.group) →
    (words.length ≠ 1 → exec (.stage p tag index words) s = .next (answered p tag .argument [] s))
    ∧ ∀ w, words = [w] →
      (f.writers.get p = false → exec (.stage p tag index words) s = .next (answered p tag .denied [index] s))
      ∧ (∀ before i v after, f.writers.get p = true → targets = before ++ (i, v) :: after →
          (∀ x ∈ before, x.2.writers.get p = true ∧ (admitWord x.2.limits w).isSome = true) →
          (v.writers.get p = false → exec (.stage p tag index words) s = .next (answered p tag .denied [i] s))
          ∧ (v.writers.get p = true → admitWord v.limits w = none →
            exec (.stage p tag index words) s = .next (answered p tag .range [i] s)))
      ∧ (f.writers.get p = true →
          (∀ x ∈ targets, x.2.writers.get p = true ∧ (admitWord x.2.limits w).isSome = true) →
          ∃ t, exec (.stage p tag index words) s = .next t
            ∧ t = answered p tag
                (if ∃ x ∈ targets, admitWord x.2.limits w ≠ some w then .clamped else .ok)
                (BitVec.ofNat 8 targets.length
                  :: targets.flatMap (fun x => x.1 :: wordBytes ((admitWord x.2.limits w).getD w))
                  ++ halfBytes (BitVec.ofNat 16 (stagedCount t f.group)))
                { s.setGroup f.group { s.group f.group with state := .staging, patience := 0#8 } with entries := t.entries }
            ∧ ∀ j, t.entry j =
                match s.entry j with
                | some (.value v) =>
                  if j ∈ f.targets then some (.value { v with staged := some [(admitWord v.limits w).getD w] })
                  else some (.value v)
                | e => e))
  ∧ (∀ w : Word,
    admitWord none w = some w
    ∧ (∀ min max : Word, min.toNat ≤ max.toNat →
        admitWord (some ⟨.unsigned, min, max, .clamp⟩) w = some (BitVec.ofNat 32 (Nat.max min.toNat (Nat.min max.toNat w.toNat)))
        ∧ admitWord (some ⟨.unsigned, min, max, .refuse⟩) w =
            if min.toNat ≤ w.toNat ∧ w.toNat ≤ max.toNat then some w else none)
    ∧ ∀ min max : Word, min.toInt ≤ max.toInt →
        admitWord (some ⟨.signed, min, max, .clamp⟩) w = some (BitVec.ofInt 32 (Max.max min.toInt (Min.min max.toInt w.toInt)))
        ∧ admitWord (some ⟨.signed, min, max, .refuse⟩) w =
            if min.toInt ≤ w.toInt ∧ w.toInt ≤ max.toInt then some w else none)
  ∧ ∀ (a b : Word) (l : Limits),
    (LimitKind.unsigned.le a b = true ↔ a.toNat ≤ b.toNat) ∧ (LimitKind.signed.le a b = true ↔ a.toInt ≤ b.toInt)
      ∧ (l.within a = true ↔ l.kind.le l.min a = true ∧ l.kind.le a l.max = true)

/-- UNSTAGE by the lessee (R21, R61): in SEALED it is refused with BUSY; in IDLE nothing is removed; in STAGING the entry's staged
value, or every target's of a sound FAN, is removed, whatever the writer sets, and the group stays STAGING. Accepted, it
clears the counter and changes nothing else. The data are the index, whether a staged value was removed, and the staged count after it. -/
def Obligations.UnstageRemovesStagedValues : Prop :=
  ∀ (p : Port) (tag index : Byte) (e : Entry) (s : State),
    Taken s p → s.mode = .running ∨ s.mode = .fault → s.entry index = some e →
    (s.group e.group).lessee = some p →
    let removes : List Byte := match e with | .value _ => [index] | .fan f => f.targets
    let cleared := s.setGroup e.group { s.group e.group with patience := 0#8 }
    ((s.group e.group).state = .sealed →
      exec (.unstage p tag index) s = .next
        (answered p tag .busy [groupByte e.group, 0x02#8, optionalPort (s.group e.group).sealer] s))
    ∧ ((s.group e.group).state = .idle →
      exec (.unstage p tag index) s = .next
        (answered p tag .ok (index :: 0#8 :: halfBytes (BitVec.ofNat 16 (stagedCount s e.group))) cleared))
    ∧ ((s.group e.group).state = .staging → (∀ f, e = .fan f → FanSound s f) →
      ∃ t, exec (.unstage p tag index) s = .next t
        ∧ t = answered p tag .ok
            (index :: (if removes.any (fun i => match s.entry i with | some (.value v) => v.staged.isSome | _ => false)
                then 1#8 else 0#8)
              :: halfBytes (BitVec.ofNat 16 (stagedCount t e.group)))
            { cleared with entries := t.entries }
        ∧ ∀ j, t.entry j =
            match s.entry j with
            | some (.value v) => if j ∈ removes then some (.value { v with staged := none }) else some (.value v)
            | d => d)

/-- SEAL by the lessee of an IDLE or STAGING group (R24, R63): the group is SEALED by the caller with the mark given, a countdown
of the delay plus one, no deferrals and nothing reported; the counter is cleared; the lessee, the queue, the staged values and
everything else are unchanged. UNSEAL by the lessee: a SEALED group is STAGING again with its staged values, the sealed-set
fields and the counter cleared, and the sealer it had in the data (R68); an IDLE or STAGING group answers LATE with its state
and epoch, and nothing changes (R69). -/
def Obligations.SealClosesAndUnsealReopens : Prop :=
  (∀ (p : Port) (tag : Byte) (g : GroupId) (delay : Byte) (marked : Bool) (s : State),
    Taken s p → s.mode = .running ∨ s.mode = .fault → delay.toNat ≤ 15 →
    (s.group g).lessee = some p → (s.group g).state ≠ .sealed →
    exec (.seal p tag (groupByte g) delay (flagByte marked)) s = .next
      (answered p tag .ok
        ([groupByte g] ++ halfBytes (s.group g).epoch ++ [delay + 1#8] ++ halfBytes (BitVec.ofNat 16 (stagedCount s g)))
        (s.setGroup g
          { s.group g with
            state := .sealed, sealer := some p, marked := marked, countdown := delay + 1#8, deferrals := 0#8
            staleReported := false, patience := 0#8 })))
  ∧ (∀ (p : Port) (tag : Byte) (g : GroupId) (s : State),
    Taken s p → s.mode = .running ∨ s.mode = .fault → (s.group g).lessee = some p →
    ((s.group g).state = .sealed →
      exec (.unseal p tag (groupByte g)) s = .next
        (answered p tag .ok
          ([groupByte g] ++ halfBytes (BitVec.ofNat 16 (stagedCount s g)) ++ [optionalPort (s.group g).sealer])
          (s.setGroup g
            { s.group g with
              state := .staging, sealer := none, marked := false, countdown := 0#8, deferrals := 0#8
              staleReported := false, patience := 0#8 })))
    ∧ ((s.group g).state ≠ .sealed →
      exec (.unseal p tag (groupByte g)) s = .next
        (answered p tag .late ([groupByte g, groupStateCode (s.group g).state] ++ halfBytes (s.group g).epoch) s)))

/-- READ_STAGED by the lessee, in every group state: a VALUE entry's staged words with the flag yes, or its active words with the
flag no; for a sound FAN the same for each target, after a count. Nothing changes (R62, R182). -/
def Obligations.ReadStagedShowsLesseeTheSet : Prop :=
  ∀ (p : Port) (tag index : Byte) (s : State),
    Taken s p → s.mode = .running ∨ s.mode = .fault ∨ s.mode = .stopping →
    let shown (v : ValueEntry) : List Byte :=
      match v.staged with
      | some words => wordsBytes words ++ [1#8]
      | none => wordsBytes v.active ++ [0#8]
    (∀ v, s.entry index = some (.value v) → (s.group v.group).lessee = some p →
      exec (.readStaged p tag index) s = .next (answered p tag .ok (BitVec.ofNat 8 v.width :: shown v) s))
    ∧ ∀ f (targets : List (Byte × ValueEntry)), s.entry index = some (.fan f) → (s.group f.group).lessee = some p →
      f.targets = targets.map (·.1) →
      (∀ x ∈ targets, s.entry x.1 = some (.value x.2) ∧ x.2.width = 1 ∧ x.2.group = f.group) →
      exec (.readStaged p tag index) s = .next
        (answered p tag .ok (BitVec.ofNat 8 targets.length :: targets.flatMap (fun x => x.1 :: shown x.2)) s)

/-! ## The commit unit (chapter 5) -/

/-- DEFINE_BUNDLE from the claimant in CONFIG (R87): ARGUMENT for a bundle above 3, a list of exactly 1 group, a number above 15 or a
group named twice, with no data; for a group of another bundle with the first such group and its bundle; else the member set
is replaced by the groups of the list. Nothing else changes. -/
def Obligations.DefineBundleReplacesMembers : Prop :=
  ∀ (p : Port) (tag bundle : Byte) (list : List Byte) (s : State),
    Taken s p → s.mode = .config → s.claim = some p → list.length ≤ 16 →
    (4 ≤ bundle.toNat ∨ list.length = 1 ∨ (∃ n ∈ list, 16 ≤ n.toNat) ∨ ¬ list.Nodup →
      exec (.defineBundle p tag bundle list) s = .next (answered p tag .argument [] s))
    ∧ ∀ (b : BundleId) (gs : List GroupId), bundle = BitVec.ofNat 8 b.val → list = gs.map groupByte →
      list.length ≠ 1 → gs.Nodup →
      (∀ before g after c, gs = before ++ g :: after →
        (∀ h ∈ before, ∀ d, d ≠ b → inSet (s.bundle d) h = false) →
        c ≠ b → inSet (s.bundle c) g = true → (∀ d, d ≠ b → inSet (s.bundle d) g = true → d = c) →
        exec (.defineBundle p tag bundle list) s = .next
          (answered p tag .argument [groupByte g, BitVec.ofNat 8 c.val] s))
      ∧ ∀ set : GroupSet, (∀ g, inSet set g = true ↔ g ∈ gs) →
        (∀ g ∈ gs, ∀ d, d ≠ b → inSet (s.bundle d) g = false) →
        exec (.defineBundle p tag bundle list) s = .next
          (answered p tag .ok [bundle, set.extractLsb' 8 8, set.extractLsb' 0 8]
            { s with bundles := s.bundles.set b.val set })

/-- The opening of the boundary the commit unit takes next (R79, R96): the committed-at-last-boundary set is emptied; at a boundary
in RUNNING one evaluation is owed for each group in no bundle and for each bundle with members, at any other boundary none.
The closing of a boundary whose evaluations have all been taken (R79, R97): COMMIT goes high for 25 CLK periods, 1 µs, if a
group has committed at it, and stays as it is if none has; the commit unit is done with the boundary. The pulse ends at its
time, and COMMIT is high exactly while there is one. A boundary leaves the work in flight when it is closed and no patience or
ack step of it is owed. Nothing else changes; an opening of an open boundary, a closing with an evaluation owed, and an end
of no pulse change nothing, and neither does a closing of a boundary not yet opened or with no boundary to close. The mode is
not looked at (log entries 2, 8 and 18). -/
def Obligations.BoundaryWorkOpensAndCloses : Prop :=
  (∀ s : State,
    (∀ before w after groupEvals bundleEvals,
      s.boundaries = before ++ w :: after → (∀ x ∈ before, x.closed = true) → w.closed = false → w.opened = false →
      (∀ g : GroupId, inSet groupEvals g = true ↔
        ((w.kind = .run ∨ w.kind = .resume) ∧ ∀ b, inSet (s.bundle b) g = false)) →
      (∀ b : BundleId, inSet bundleEvals b = true ↔ ((w.kind = .run ∨ w.kind = .resume) ∧ s.bundle b ≠ 0#16)) →
      exec .opening s = .next
        { s with
          committedLast := 0#16
          boundaries :=
            before ++ { w with opened := true, groupEvals := groupEvals, bundleEvals := bundleEvals } :: after })
    ∧ (∀ before w after, s.boundaries = before ++ w :: after → (∀ x ∈ before, x.closed = true) → w.closed = false →
      w.opened = true → exec .opening s = .next s)
    ∧ ((∀ x ∈ s.boundaries, x.closed = true) → exec .opening s = .next s))
  ∧ (∀ s : State,
    (∀ before w after,
      s.boundaries = before ++ w :: after → (∀ x ∈ before, x.closed = true) → w.closed = false → w.opened = true →
      (w.groupEvals = 0#16 → w.bundleEvals = 0#4 →
        exec .closing s = .next
          { s with
            commitPulse := if s.committedLast = 0#16 then s.commitPulse else some (s.now + 25)
            boundaries := (before ++ { w with closed := true } :: after).filter (fun x => !x.finished) })
      ∧ (w.groupEvals ≠ 0#16 ∨ w.bundleEvals ≠ 0#4 → exec .closing s = .next s))
    ∧ (∀ before w after, s.boundaries = before ++ w :: after → (∀ x ∈ before, x.closed = true) → w.closed = false →
      w.opened = false → exec .closing s = .next s)
    ∧ ((∀ x ∈ s.boundaries, x.closed = true) → exec .closing s = .next s)
    ∧ (∀ time, s.commitPulse = some time →
        exec .commitPulseEnd s = .next { s with commitPulse := none, now := max s.now time })
    ∧ (s.commitPulse = none → exec .commitPulseEnd s = .next s)
    ∧ (s.commitLine = true ↔ ∃ time, s.commitPulse = some time))
  ∧ ∀ w : BoundaryWork, w.finished = true ↔ w.closed = true ∧ w.patienceSteps = 0#16 ∧ w.ackSteps = 0#16

/-- The commit of a group (R22, R24, R25, R30, R32, R92 to R94): its staged values are active with the new epoch as their
entry epoch; its epoch is one on, 65535 followed by 1, with the entry epochs brought to 1 then; it is IDLE, the sealer is the
last sealer, the sealed-set fields are cleared, the last commit frame is the boundary's, the ack age is 0, and the ACK_ALL
subscribers owe, and the ACK_MARKED ones if the set was marked; COMMITTED goes to the subscribers and the sealer; the group
joins the committed-at-last-boundary set, and the commit is known to the steps that this boundary and the earlier ones in
flight still owe the group (R29; log entry 20). The lease, the queue, the counter, the subscriptions, the parameters and every
other group stay as they are. -/
def Obligations.CommitMakesSetActive : Prop :=
  ∀ (frame : Half) (g : GroupId) (s : State),
    let r := s.group g
    let epoch := if r.epoch = 65535#16 then 1#16 else r.epoch + 1#16
    let owes (q : Port) : Bool :=
      r.subscriptions.get q == .ackAll || (r.subscriptions.get q == .ackMarked && r.marked)
    let told (q : Port) : Bool :=
      r.subscriptions.get q == .observe || r.subscriptions.get q == .ackAll || r.subscriptions.get q == .ackMarked
        || r.sealer == some q
    let t := commitGroup frame g s
    t = { s with
          entries := t.entries, groups := t.groups, ports := t.ports
          committedLast := addTo s.committedLast g, boundaries := t.boundaries }
    ∧ (∀ h, t.group h =
        if h = g then
          { r with
            state := .idle, epoch := epoch, lastCommitFrame := some frame, lastSealer := r.sealer, sealer := none
            marked := false, countdown := 0#8, deferrals := 0#8, staleReported := false
            outstanding := ⟨owes .p0, owes .p1, owes .p2, owes .p3⟩, ackAge := 0#8 }
        else s.group h)
    ∧ (∀ i, t.entry i =
        match s.entry i with
        | some (.value v) =>
          some (.value
            (if v.group ≠ g then v
             else match v.staged with
              | some words => { v with active := words, staged := none, epoch := epoch }
              | none => if epoch = 1#16 ∧ v.epoch ≠ 0#16 then { v with epoch := 1#16 } else v))
        | e => e)
    ∧ (∀ q, t.portUnit q =
        if told q = true ∧ s.isOnline q = true then
          { s.portUnit q with
            queue := enqueue (s.portUnit q).queue (.committed g epoch r.marked (owes q)) s.timing.frameNumber }
        else s.portUnit q)
    ∧ (∀ before w after, s.boundaries = before ++ w :: after → (∀ x ∈ before, x.closed = true) → w.closed = false →
        t.boundaries =
          before.map (fun x => { x with committed := addTo x.committed g })
            ++ { w with committed := addTo w.committed g } :: after)

/-- The evaluation of a group in no bundle, while the commit unit's boundary owes it one (R80 to R85): in RUNNING an IDLE or
STAGING group is left alone; a SEALED group whose countdown is above 1 has it lowered; a due group commits if no
acknowledgment is owed, and otherwise its deferral count rises by one, saturating, and DEFERRED with reason ACKS goes to the
sealer and the other holdouts when the count first equals the stale limit. Outside RUNNING, or with a STOP since the boundary,
the evaluation does nothing (R80, R150). Where none is owed, nothing changes (log entry 2). -/
def Obligations.GroupEvaluationCommitsOrDefers : Prop :=
  ∀ (g : GroupId) (s : State),
    (∀ before w after,
      s.boundaries = before ++ w :: after → (∀ x ∈ before, x.closed = true) → w.closed = false → w.opened = true →
      inSet w.groupEvals g = true →
      let u := { s with boundaries := before ++ { w with groupEvals := dropFrom w.groupEvals g } :: after }
      let r := s.group g
      let count := if r.deferrals = 255#8 then 255#8 else r.deferrals + 1#8
      let holdouts := [Port.p0, .p1, .p2, .p3].filter (fun q => r.outstanding.get q && r.sealer != some q)
      exec (.groupEvaluation g) s = .next (
        if s.mode ≠ .running ∨ w.void = true ∨ r.state ≠ .sealed then u
        else if 1 < r.countdown.toNat then u.setGroup g { r with countdown := r.countdown - 1#8 }
        else if r.outstanding = ⟨false, false, false, false⟩ then commitGroup w.frame g u
        else if count = r.staleLimit ∧ r.staleReported = false then
          (u.setGroup g { r with countdown := 0#8, deferrals := count, staleReported := true }).notifyEach
            (r.sealer.toList ++ holdouts) (fun _ => .deferred g count .acks)
        else u.setGroup g { r with countdown := 0#8, deferrals := count }))
    ∧ ((∀ before w after, s.boundaries = before ++ w :: after → (∀ x ∈ before, x.closed = true) → w.closed = false →
        w.opened = false ∨ inSet w.groupEvals g = false) →
      exec (.groupEvaluation g) s = .next s)

/-- The evaluation of a bundle, while the commit unit's boundary owes it one and the mode is RUNNING (R81, R84, R88 to R90, R95).
It commits when no member is STAGING, a member is SEALED, and every SEALED member is due with nothing owed: then every SEALED
member commits, in increasing order, and no other group changes. Otherwise every SEALED member has its countdown lowered, and
each that is due has its deferral count raised, with DEFERRED when the count first equals its stale limit, reason ACKS if it
is owed acknowledgments itself and PARTNER if not; no value, no epoch and no other group changes. Outside RUNNING, or with a
STOP since the boundary, the evaluation is taken and does nothing (R80, R150). Where none is owed, nothing changes (log entry
2). -/
def Obligations.BundleEvaluationCommitsTogether : Prop :=
  (∀ (b : BundleId) (s : State) (before after : List BoundaryWork) (w : BoundaryWork),
    s.boundaries = before ++ w :: after → (∀ x ∈ before, x.closed = true) → w.closed = false → w.opened = true →
    inSet w.bundleEvals b = true →
    let u := { s with boundaries := before ++ { w with bundleEvals := dropFrom w.bundleEvals b } :: after }
    let isSealed (g : GroupId) : Bool := inSet (s.bundle b) g && (s.group g).state == .sealed
    let ready : Prop :=
      (∀ g, inSet (s.bundle b) g = true → (s.group g).state ≠ .staging) ∧ (∃ g, isSealed g = true)
        ∧ ∀ g, isSealed g = true → (s.group g).countdown.toNat ≤ 1 ∧ (s.group g).outstanding = ⟨false, false, false, false⟩
    (s.mode ≠ .running ∨ w.void = true → exec (.bundleEvaluation b) s = .next u)
    ∧ (s.mode = .running → w.void = false → ready →
      exec (.bundleEvaluation b) s = .next ((allGroups.filter isSealed).foldl (fun t g => commitGroup w.frame g t) u))
    ∧ (s.mode = .running → w.void = false → ¬ ready →
      ∃ t, exec (.bundleEvaluation b) s = .next t
        ∧ t = { u with groups := t.groups, ports := t.ports }
        ∧ (∀ g, t.group g =
            let r := s.group g
            if isSealed g = false then r
            else if 1 < r.countdown.toNat then { r with countdown := r.countdown - 1#8 }
            else
              let count := if r.deferrals = 255#8 then 255#8 else r.deferrals + 1#8
              { r with
                countdown := 0#8, deferrals := count
                staleReported := r.staleReported || count == r.staleLimit })
        ∧ ∀ q, t.portUnit q =
            let reports := allGroups.filter fun g =>
              let r := s.group g
              isSealed g && decide (r.countdown.toNat ≤ 1) && !r.staleReported
                && ((if r.deferrals = 255#8 then 255#8 else r.deferrals + 1#8) == r.staleLimit)
                && (r.sealer == some q || r.outstanding.get q)
            { s.portUnit q with
              queue :=
                if s.isOnline q then
                  reports.foldl
                    (fun queue g => enqueue queue
                      (.deferred g (s.group g).staleLimit
                        (if (s.group g).outstanding = ⟨false, false, false, false⟩ then .partner else .acks))
                      s.timing.frameNumber)
                    (s.portUnit q).queue
                else (s.portUnit q).queue }))
  ∧ ∀ (b : BundleId) (s : State),
    (∀ before w after, s.boundaries = before ++ w :: after → (∀ x ∈ before, x.closed = true) → w.closed = false →
      w.opened = false ∨ inSet w.bundleEvals b = false) →
    exec (.bundleEvaluation b) s = .next s

/-- At a bundle's evaluation either every SEALED member commits, taking the next epoch and becoming IDLE, or no group's epoch
changes; and none commits while a member is STAGING (R88, R89). Outside RUNNING, with no evaluation owed, or with a STOP since
the boundary, no group changes (R80, R150). -/
def Obligations.BundleMembersCommitAllOrNone : Prop :=
  ∀ (b : BundleId) (s t : State), exec (.bundleEvaluation b) s = .next t →
    ((∀ g, (t.group g).epoch = (s.group g).epoch)
      ∨ (s.mode = .running
        ∧ (∀ g, inSet (s.bundle b) g = true → (s.group g).state ≠ .staging)
        ∧ ∀ g, if inSet (s.bundle b) g = true ∧ (s.group g).state = .sealed then
              (t.group g).epoch = (if (s.group g).epoch = 65535#16 then 1#16 else (s.group g).epoch + 1#16)
                ∧ (t.group g).state = .idle
            else t.group g = s.group g))
    ∧ (s.mode ≠ .running ∨ (∀ w, AtWork s w → w.opened = false ∨ inSet w.bundleEvals b = false ∨ w.void = true) →
        ∀ g, t.group g = s.group g)

/-- The patience step of a group at the oldest boundary that owes it one (R29, R49, R50, R75). It acts only while the mode is
RUNNING with no STOP since that boundary, with a limit, a waiting port, the group not SEALED and not committed at that
boundary or since (log entry 20): the counter rises by one, and at the limit LEASE_LOST goes to the lessee, a STAGING set is
discarded with DISCARDED at the lessee, and the lease goes to the head of the queue with LEASE_GRANTED, also where a RELEASE
has just passed it on (log entry 21). Otherwise nothing changes but that the step is taken; with none owed, nothing changes.
-/
def Obligations.PatienceStepRevokesAtLimit : Prop :=
  ∀ (g : GroupId) (s : State),
    (∀ before w after,
      s.boundaries = before ++ w :: after → (∀ x ∈ before, inSet x.patienceSteps g = false) →
      inSet w.patienceSteps g = true →
      let u := { s with
        boundaries :=
          (before ++ { w with patienceSteps := dropFrom w.patienceSteps g } :: after).filter (fun x => !x.finished) }
      let r := s.group g
      (s.mode ≠ .running ∨ w.void = true ∨ inSet w.committed g = true ∨ r.patienceLimit = 0#8 ∨ r.waitQueue = []
          ∨ r.state = .sealed →
        exec (.patienceStep g) s = .next u)
      ∧ ∀ holder next rest, s.mode = .running → w.void = false → inSet w.committed g = false → r.patienceLimit ≠ 0#8 →
        r.waitQueue = next :: rest → r.state ≠ .sealed → r.lessee = some holder →
        exec (.patienceStep g) s = .next (
          if r.patience + 1#8 ≠ r.patienceLimit then u.setGroup g { r with patience := r.patience + 1#8 }
          else
            let handed : Group := { r with lessee := some next, waitQueue := rest, patience := 0#8 }
            if r.state = .staging then
              let v := discardSet g ((u.notify holder (.leaseLost g .patience false)).notify holder
                (.discarded g .patience false))
              (v.setGroup g { v.group g with lessee := some next, waitQueue := rest, patience := 0#8 }).notify next
                (.leaseGranted g .patience)
            else ((u.notify holder (.leaseLost g .patience false)).setGroup g handed).notify next
                (.leaseGranted g .patience)))
    ∧ ((∀ x ∈ s.boundaries, inSet x.patienceSteps g = false) → exec (.patienceStep g) s = .next s)

/-- The ack step of a group at the oldest boundary that owes it one (R29, R112, R114, R115). It acts only while the mode is
RUNNING with no STOP since that boundary, with acknowledgments owed and the group not committed at that boundary or since
(R93; log entry 20): the ack age rises by one, staying at 255, and when it comes to a deadline that is not 0 every port of the
outstanding set lapses: the set is empty, their subscriptions are LAPSED, and LAPSED goes to each of them and to a last sealer
that is not one of them, with the count. Otherwise nothing changes but that the step is taken; with none owed, nothing
changes. -/
def Obligations.AckStepLapsesAtDeadline : Prop :=
  ∀ (g : GroupId) (s : State),
    (∀ before w after,
      s.boundaries = before ++ w :: after → (∀ x ∈ before, inSet x.ackSteps g = false) → inSet w.ackSteps g = true →
      let u := { s with
        boundaries := (before ++ { w with ackSteps := dropFrom w.ackSteps g } :: after).filter (fun x => !x.finished) }
      let r := s.group g
      exec (.ackStep g) s = .next (
        if s.mode ≠ .running ∨ w.void = true ∨ inSet w.committed g = true ∨ r.outstanding = ⟨false, false, false, false⟩
            ∨ r.ackAge = 255#8 then u
        else
          let age := r.ackAge + 1#8
          if r.ackDeadline = 0#8 ∨ age ≠ r.ackDeadline then u.setGroup g { r with ackAge := age }
          else
            let holdouts := [Port.p0, .p1, .p2, .p3].filter r.outstanding.get
            let count := BitVec.ofNat 8 holdouts.length
            let after (q : Port) : Subscription := if r.outstanding.get q then .lapsed else r.subscriptions.get q
            let v := (u.setGroup g
              { r with
                ackAge := age, outstanding := ⟨false, false, false, false⟩
                subscriptions := ⟨after .p0, after .p1, after .p2, after .p3⟩ }).notifyEach holdouts
                (fun _ => .lapsed g r.epoch false count)
            match r.lastSealer with
            | some q => if r.outstanding.get q = true then v else v.notify q (.lapsed g r.epoch true count)
            | none => v))
    ∧ ((∀ x ∈ s.boundaries, inSet x.ackSteps g = false) → exec (.ackStep g) s = .next s)

/-! ## Frame timing (chapter 7) -/

/-- SET_FRAME by the mode, the claim and the arguments (R123, R124): the source and the period replaced, with the period and the two
bounds of the sync window in the data: 7P/8 µs rounded up and 9P/8 µs rounded down to CLK periods of 40 ns. They are
replaced at once in every state of CONFIG; that this is so also while the message of an entry to CONFIG has not reached frame
timing is the model's choice (log entry 23). -/
def Obligations.SetFrameReplacesSourceAndPeriod : Prop :=
  ∀ (p : Port) (tag source : Byte) (period : Word) (s : State), Taken s p →
    (s.mode ≠ .config → exec (.setFrame p tag source period) s = .next (answered p tag .mode [] s))
    ∧ (s.mode = .config → s.claim ≠ some p → exec (.setFrame p tag source period) s = .next (answered p tag .noClaim [] s))
    ∧ (s.mode = .config → s.claim = some p → 2 ≤ source.toNat ∨ period.toNat < 100 ∨ 1000000 < period.toNat →
      exec (.setFrame p tag source period) s = .next (answered p tag .argument [] s))
    ∧ ∀ early late : Nat, s.mode = .config → s.claim = some p → source.toNat ≤ 1 →
      100 ≤ period.toNat → period.toNat ≤ 1000000 →
      7 * 25 * period.toNat ≤ 8 * early → 8 * early < 7 * 25 * period.toNat + 8 →
      8 * late ≤ 9 * 25 * period.toNat → 9 * 25 * period.toNat < 8 * late + 8 →
      exec (.setFrame p tag source period) s = .next
        (answered p tag .ok
          ([source] ++ wordBytes period ++ wordBytes (BitVec.ofNat 32 early) ++ wordBytes (BitVec.ofNat 32 late))
          { s with
            timing := { s.timing with source := if source = 0#8 then .internal else .external, period := period } })

/-- Frame timing takes mode control's messages in order (R126, R136): at a START it enters FIRST with its counts and
resume-armed cleared, and with source INTERNAL its timer runs one period from the START; at an entry to CONFIG it enters
STOPPED, cancels the timer, clears resume-armed and forgets the last boundary time, and keeps the rest; reports it made
before, which mode control has not taken, are ignored (R125, R153; log entry 14). With another message first, or none, nothing
changes (log entry 2). -/
def Obligations.FrameTimingTakesMessages : Prop :=
  ∀ s : State,
    (∀ takenAt rest, s.toTiming = .start takenAt :: rest →
      exec .enterFirst s = .next
        { s with
          toTiming := rest
          timing :=
            { s.timing with
              state := .first, flywheel := 0#8, earlySync := 0#16, resumeArmed := false
              timer := if s.timing.source = .internal then some (takenAt + 25 * s.timing.period.toNat) else none } }
      ∧ exec .enterStopped s = .next s)
    ∧ (∀ rest, s.toTiming = .enterConfig :: rest →
      exec .enterStopped s = .next
        { s with
          toTiming := rest
          toMode := []
          timing := { s.timing with state := .stopped, timer := none, resumeArmed := false, lastBoundary := none } }
      ∧ exec .enterFirst s = .next s)
    ∧ (s.toTiming = [] → exec .enterFirst s = .next s ∧ exec .enterStopped s = .next s)

/-- A rising edge of FSYNC by the timing state (R122, R124, R127, R128, R129, R134, R135, R137, R156). The first edge in FIRST with
source EXTERNAL is boundary 0; in TRACKING an edge before the early bound counts as early, and one from the early bound to the
late bound is a boundary, with the flywheel count back at 0; in LOST the edge after the arming is the resume boundary; every
other edge is ignored. A boundary is stamped, numbered and sent to mode control. A time before the present one is read as the
present, and an edge after the late bound, which comes only after the expiry of its window, changes nothing (log entry 3).
The mode is not looked at: boundaries come until the message of an entry to CONFIG is taken (log entry 24). -/
def Obligations.FsyncEdgeJudgedByState : Prop :=
  ∀ (time : Nat) (s : State),
    let at_ := max s.now time
    let boundary (frame : Half) (timing : Timing) : State :=
      { s with
        timing := { timing with state := .tracking, lastBoundary := some at_, frameNumber := frame }
        now := at_, toMode := s.toMode ++ [TimingReport.boundary frame] }
    let ignored : State := { s with now := at_ }
    (s.resetLow = true → exec (.fsyncEdge time) s = .next ignored)
    ∧ (s.resetLow = false → s.timing.state = .stopped → exec (.fsyncEdge time) s = .next ignored)
    ∧ (s.resetLow = false → s.timing.state = .first → s.timing.source = .internal →
        exec (.fsyncEdge time) s = .next ignored)
    ∧ (s.resetLow = false → s.timing.state = .first → s.timing.source = .external →
        exec (.fsyncEdge time) s = .next (boundary 0#16 s.timing))
    ∧ (s.resetLow = false → s.timing.state = .tracking → s.timing.source = .internal →
        exec (.fsyncEdge time) s = .next ignored)
    ∧ (∀ last, s.resetLow = false → s.timing.state = .tracking → s.timing.source = .external →
        s.timing.lastBoundary = some last →
        exec (.fsyncEdge time) s = .next (
          if 8 * at_ < 8 * last + 7 * 25 * s.timing.period.toNat then
            { s with
              timing :=
                { s.timing with
                  earlySync := if s.timing.earlySync = 65535#16 then 65535#16 else s.timing.earlySync + 1#16 }
              now := at_ }
          else if 8 * at_ ≤ 8 * last + 9 * 25 * s.timing.period.toNat then
            boundary (s.timing.frameNumber + 1#16) { s.timing with flywheel := 0#8 }
          else s))
    ∧ (s.resetLow = false → s.timing.state = .lost → s.timing.resumeArmed = false →
        exec (.fsyncEdge time) s = .next ignored)
    ∧ (s.resetLow = false → s.timing.state = .lost → s.timing.resumeArmed = true →
        exec (.fsyncEdge time) s = .next
          (boundary (s.timing.frameNumber + 1#16) { s.timing with flywheel := 0#8, resumeArmed := false }))

/-- The internal timer's expiry with source INTERNAL (R127, R128, R137): in FIRST boundary 0, in TRACKING the next boundary, at the
time the timer was set for, with the timer set one period on from it. The expiry of the sync window in TRACKING with source
EXTERNAL (R130, R131, R133, R137): with a flywheel count of 0, 1 or 2 the count rises and a substitute boundary is produced at
the late bound, with FRAME at every ONLINE port; at 3 the unit enters LOST and reports frame loss, the count and the frame
number kept. In any other state nothing changes (log entry 2). The mode is not looked at: boundaries come until the message of
an entry to CONFIG is taken (log entry 24). -/
def Obligations.TimersProduceBoundaries : Prop :=
  (∀ s : State,
    (∀ time, s.timing.timer = some time → s.timing.source = .internal →
      s.timing.state = .first ∨ s.timing.state = .tracking →
      let frame := if s.timing.state = .first then 0#16 else s.timing.frameNumber + 1#16
      exec .internalTimer s = .next
        { s with
          timing :=
            { s.timing with
              state := .tracking, lastBoundary := some time, frameNumber := frame
              timer := some (time + 25 * s.timing.period.toNat) }
          now := max s.now time, toMode := s.toMode ++ [TimingReport.boundary frame] })
    ∧ (s.timing.timer = none ∨ s.timing.source = .external ∨ s.timing.state = .stopped ∨ s.timing.state = .lost →
      exec .internalTimer s = .next s))
  ∧ (∀ s : State,
    (∀ last late, s.timing.state = .tracking → s.timing.source = .external → s.timing.lastBoundary = some last →
      8 * late ≤ 9 * 25 * s.timing.period.toNat → 9 * 25 * s.timing.period.toNat < 8 * late + 8 →
      (s.timing.flywheel.toNat ≤ 2 →
        exec .windowExpiry s = .next
          ({ s with
            timing :=
              { s.timing with
                lastBoundary := some (last + late), frameNumber := s.timing.frameNumber + 1#16
                flywheel := s.timing.flywheel + 1#8 }
            now := max s.now (last + late)
            toMode := s.toMode ++ [TimingReport.boundary (s.timing.frameNumber + 1#16)] }.notifyEach [.p0, .p1, .p2, .p3]
              (fun _ => .frameSubstitute (s.timing.flywheel + 1#8))))
      ∧ (s.timing.flywheel = 3#8 →
        exec .windowExpiry s = .next
          { s with
            timing := { s.timing with state := .lost }
            now := max s.now (last + late), toMode := s.toMode ++ [TimingReport.frameLoss] }))
    ∧ (s.timing.state ≠ .tracking ∨ s.timing.source = .internal ∨ s.timing.lastBoundary = none →
      exec .windowExpiry s = .next s))

/-! ## What every step keeps -/

/-- No queue ever holds more than 32 notices or anything but OVERFLOW in its 32nd place (R170); an OFFLINE port holds no notices and
has attention enable no (R165, R167, R171, R174); and every response has at most 160 data bytes (R163, R180, R181), given entries
of the shapes of R1 and R13. -/
def Obligations.StepKeepsPortBuffersBounded : Prop :=
  (∀ s t : State, QueuesBounded s → step s = .next t → QueuesBounded t)
  ∧ (∀ s t : State, OfflineQuiet s → step s = .next t → OfflineQuiet t)
  ∧ (∀ s t : State, StoreAccounted s → ResponsesFit s → step s = .next t → ResponsesFit t)

/-- The free count is 512 less the widths of the defined VALUE entries, and every entry keeps its shape (R1, R3); every active and
staged value of an entry with limits lies within them (R5); no entry epoch exceeds its group's epoch (R7, R30). -/
def Obligations.StepKeepsTableConsistent : Prop :=
  (∀ s t : State, StoreAccounted s → step s = .next t → StoreAccounted t)
  ∧ (∀ s t : State, LimitsHeld s → step s = .next t → LimitsHeld t)
  ∧ (∀ s t : State, EpochsOrdered s → step s = .next t → EpochsOrdered t)

/-- Leases and wait queues stay in order (R40): no port waits twice or for a lease it holds, a free lease has no queue, and only
ONLINE ports hold or await leases. The patience counter stays below its limit, and 0 without one and in CONFIG and STARTING
(R36, R48, R50). -/
def Obligations.StepKeepsLeasesAndPatience : Prop :=
  (∀ s t : State, LeasesOrdered s → step s = .next t → LeasesOrdered t)
  ∧ (∀ s t : State, PatienceHeld s → step s = .next t → PatienceHeld t)

/-- Only a port subscribed ACK_ALL or ACK_MARKED owes an acknowledgment, and only an ONLINE port is subscribed (R107, R166). The
claim is held only in CONFIG and only by an ONLINE port (R143, R144, R166). -/
def Obligations.StepKeepsObligationsAndClaim : Prop :=
  (∀ s t : State, ObligationsHeld s → step s = .next t → ObligationsHeld t)
  ∧ (∀ s t : State, ClaimLegal s → step s = .next t → ClaimLegal t)

/-- The group states stay legal (R9, R24, R26): in CONFIG and STARTING every group is IDLE with nothing held, a STAGING group has a
lessee, only a SEALED group has sealed-set fields, and only a STAGING or SEALED group has staged values. -/
def Obligations.StepKeepsGroupsLegal : Prop := ∀ s t : State, GroupsLegal s → step s = .next t → GroupsLegal t

/-- Outside CONFIG every FAN is sound (R14); a group is in at most one bundle, and no bundle has exactly one member (R86); the
flywheel count never exceeds 3 and the period stays in its range (R122, R123, R130). No boundary in RUNNING outlives a STOP
(R29, R80, R150), and the start boundary that mode control takes has frame number 0 (R126, R136, R148, R153). -/
def Obligations.StepKeepsLayoutAndTimingLegal : Prop :=
  (∀ s t : State, FansSound s → step s = .next t → FansSound t)
  ∧ (∀ s t : State, BundlesLegal s → step s = .next t → BundlesLegal t)
  ∧ (∀ s t : State, TimingBounded s → step s = .next t → TimingBounded t)
  ∧ (∀ s t : State, StoppedWorkVoid s → step s = .next t → StoppedWorkVoid t)
  ∧ (∀ s t : State, ReportsFresh s → step s = .next t → ReportsFresh t)

/-- While RESET# is low every block keeps its reset values, whatever is commanded (R156). -/
def Obligations.StepKeepsHeldInReset : Prop := ∀ s t : State, HeldInReset s → step s = .next t → HeldInReset t

/-! ## Laws of the whole part -/

/-- A group's epoch changes only by a device reset, to 0, or at an evaluation of the group, or of a bundle that holds it, that its
boundary still owes with no STOP since, made in RUNNING and finding the group SEALED with no acknowledgment owed, and then by
exactly one step, 65535 followed by 1 (R30, R80). -/
def Obligations.EpochAdvancesOnlyAtClearedEvaluation : Prop :=
  ∀ (s t : State) (g : GroupId) (c : Instr) (rest : List Instr), s.pending = c :: rest → step s = .next t →
    (t.group g).epoch ≠ (s.group g).epoch →
    ((t.group g).epoch = 0#16 ∧ (c = .resetAssert ∨ c = .powerUp ∨ ∃ q tag, c = .resetDevice q tag))
    ∨ ((∃ w, AtWork s w ∧ w.opened = true ∧ w.void = false
          ∧ ((c = .groupEvaluation g ∧ inSet w.groupEvals g = true)
            ∨ ∃ b, c = .bundleEvaluation b ∧ inSet w.bundleEvals b = true ∧ inSet (s.bundle b) g = true))
      ∧ s.mode = .running ∧ (s.group g).state = .sealed ∧ (s.group g).outstanding = ⟨false, false, false, false⟩
      ∧ (t.group g).epoch = if (s.group g).epoch = 65535#16 then 1#16 else (s.group g).epoch + 1#16)

/-- The active words of an entry that stays defined change only by the commit of its group, and then to the words that were
staged, with the group's new epoch (R16, R18, R22, R92). -/
def Obligations.ActiveWordsChangeOnlyByCommit : Prop :=
  ∀ (s t : State) (i : Byte) (v w : ValueEntry), step s = .next t →
    s.entry i = some (.value v) → t.entry i = some (.value w) → w.active ≠ v.active →
    s.mode = .running ∧ (s.group v.group).state = .sealed ∧ v.staged = some w.active ∧ w.staged = none
      ∧ w.epoch = (t.group v.group).epoch ∧ (t.group v.group).epoch ≠ (s.group v.group).epoch

/-- The layout, the parameters and the frame settings stay fixed from START until the part is in CONFIG again, but for a device
reset (R10, R33, R86, R122): the definitions of entries, the groups' three parameters, the bundles, the source and the period. -/
def Obligations.LayoutFixedOutsideConfig : Prop :=
  ∀ (s t : State) (c : Instr) (rest : List Instr), s.pending = c :: rest → c ≠ .resetAssert → c ≠ .powerUp →
    s.mode ≠ .config → step s = .next t →
    t.bundles = s.bundles ∧ t.freeWords = s.freeWords
      ∧ t.timing.source = s.timing.source ∧ t.timing.period = s.timing.period
      ∧ (∀ g, (t.group g).staleLimit = (s.group g).staleLimit ∧ (t.group g).ackDeadline = (s.group g).ackDeadline
          ∧ (t.group g).patienceLimit = (s.group g).patienceLimit)
      ∧ ∀ i, match s.entry i, t.entry i with
          | none, none => True
          | some (.fan f), some (.fan f') => f = f'
          | some (.value v), some (.value v') =>
            v.group = v'.group ∧ v.width = v'.width ∧ v.writers = v'.writers ∧ v.limits = v'.limits
          | _, _ => False

/-- A port's response buffer changes only by a transaction on that port, or by a device reset, which sets the reset response
(R159, R163, R164), be it another port's RESET_DEVICE. But for a device reset no command of another port opens or closes its
session, and none changes its subscriptions but a lapse, which sets LAPSED (R102, R158). -/
def Obligations.PortsOwnTheirBuffersAndSubscriptions : Prop :=
  (∀ (s t : State) (c : Instr) (rest : List Instr) (p : Port), s.pending = c :: rest → step s = .next t →
    portOf c ≠ some p →
    (t.portUnit p).response = (s.portUnit p).response
      ∨ ((t.portUnit p).response = ⟨0#8, .ok, []⟩
        ∧ (c = .resetAssert ∨ c = .powerUp ∨ ∃ q tag, c = .resetDevice q tag)))
  ∧ (∀ (s t : State) (c : Instr) (rest : List Instr) (p : Port), s.pending = c :: rest → step s = .next t →
    portOf c ≠ some p → (∀ q tag, c ≠ .resetDevice q tag) → c ≠ .resetAssert → c ≠ .powerUp →
    t.isOnline p = s.isOnline p ∧ (t.portUnit p).sessionNumber = (s.portUnit p).sessionNumber
      ∧ ∀ g, (t.group g).subscriptions.get p = (s.group g).subscriptions.get p
          ∨ ((t.group g).subscriptions.get p = .lapsed ∧ (s.group g).outstanding.get p = true ∧ c = .ackStep g))
end

