-- ==== Sys2Proof/Laws/State.lean ====
section
/-! SUPPORT. What one update of a record leaves of every field and every reader: one lemma per field per update, true
by rfl and tagged simp, and the value an update writes. -/

namespace Sys2Proof

/-! ### One value per port -/

theorem PerPort.ext_get {α : Type} {v w : PerPort α} (h : ∀ p, v.get p = w.get p) : v = w := by
  cases v; cases w
  have h0 := h .p0; have h1 := h .p1; have h2 := h .p2; have h3 := h .p3
  simp only [PerPort.get] at h0 h1 h2 h3
  subst h0 h1 h2 h3; rfl

theorem PerPort.get_set {α : Type} (v : PerPort α) (p q : Port) (a : α) :
    (v.set p a).get q = if p = q then a else v.get q := by
  cases p <;> cases q <;> rfl

@[simp] theorem PerPort.get_set_self {α : Type} (v : PerPort α) (p : Port) (a : α) : (v.set p a).get p = a := by
  cases p <;> rfl

theorem PerPort.get_set_ne {α : Type} (v : PerPort α) {p q : Port} (a : α) (h : p ≠ q) : (v.set p a).get q = v.get q := by
  rw [PerPort.get_set, if_neg h]

@[simp] theorem PerPort.set_get {α : Type} (v : PerPort α) (p : Port) : v.set p (v.get p) = v := by
  cases p <;> rfl

@[simp] theorem PerPort.set_set {α : Type} (v : PerPort α) (p : Port) (a b : α) : (v.set p a).set p b = v.set p b := by
  cases p <;> rfl

@[simp] theorem PerPort.get_ofFun {α : Type} (f : Port → α) (p : Port) : (PerPort.ofFun f).get p = f p := by
  cases p <;> rfl

@[simp] theorem PerPort.get_fill {α : Type} (a : α) (p : Port) : (PerPort.fill a).get p = a := by
  cases p <;> rfl

@[simp] theorem PortSet.get_none (p : Port) : (PortSet.none).get p = false := by
  cases p <;> rfl

@[simp] theorem PortSet.get_every (p : Port) : (PortSet.every).get p = true := by
  cases p <;> rfl

theorem Port.mem_all (p : Port) : p ∈ Port.all := by
  cases p <;> decide

end Sys2Proof

namespace Sys2Proof.Machine

open Sys2Proof

/-! ### The readers after each update -/

@[simp] theorem portUnit_setPort_self (s : State) (p : Port) (u : PortUnit) : (s.setPort p u).portUnit p = u :=
  PerPort.get_set_self _ _ _

theorem portUnit_setPort (s : State) (p q : Port) (u : PortUnit) :
    (s.setPort p u).portUnit q = if p = q then u else s.portUnit q :=
  PerPort.get_set _ _ _ _

@[simp] theorem setPort_setPort (s : State) (p : Port) (u v : PortUnit) : (s.setPort p u).setPort p v = s.setPort p v := by
  simp [State.setPort]

@[simp] theorem setPort_portUnit (s : State) (p : Port) : s.setPort p (s.portUnit p) = s := by
  simp [State.setPort, State.portUnit]

@[simp] theorem group_setGroup_self (s : State) (g : GroupId) (r : Group) : (s.setGroup g r).group g = r := by
  simp [State.group, State.setGroup]

theorem group_setGroup (s : State) (g h : GroupId) (r : Group) :
    (s.setGroup g r).group h = if g = h then r else s.group h := by
  simp [State.group, State.setGroup, Vector.getElem_set, Fin.ext_iff]

theorem group_setGroup_ne (s : State) {g h : GroupId} (r : Group) (hne : g ≠ h) :
    (s.setGroup g r).group h = s.group h := by
  rw [group_setGroup, if_neg hne]

@[simp] theorem setGroup_setGroup (s : State) (g : GroupId) (r r' : Group) :
    (s.setGroup g r).setGroup g r' = s.setGroup g r' := by
  simp [State.setGroup]

@[simp] theorem setGroup_group (s : State) (g : GroupId) : s.setGroup g (s.group g) = s := by
  simp [State.setGroup, State.group]

theorem entry_setEntry (s : State) (i j : Byte) (e : Option Entry) :
    (s.setEntry i e).entry j = if i = j then e else s.entry j := by
  simp [State.entry, State.setEntry, Vector.getElem_set, BitVec.toNat_inj]

@[simp] theorem entry_setEntry_self (s : State) (i : Byte) (e : Option Entry) : (s.setEntry i e).entry i = e := by
  rw [entry_setEntry, if_pos rfl]

@[simp] theorem setEntry_entry (s : State) (i : Byte) : s.setEntry i (s.entry i) = s := by
  simp [State.setEntry, State.entry]

theorem getElem_mapVector {α β : Type} {n : Nat} (f : α → β) (v : Vector α n) (i : Nat) (h : i < n) :
    (mapVector f v)[i] = f v[i] := by
  simp [mapVector, Vector.getElem_mk]

@[simp] theorem toList_mapVector {α β : Type} {n : Nat} (f : α → β) (v : Vector α n) :
    (mapVector f v).toList = v.toList.map f := by
  simp [mapVector, Vector.toList]

@[simp] theorem entry_mapEntries (s : State) (f : Option Entry → Option Entry) (i : Byte) :
    (s.mapEntries f).entry i = f (s.entry i) := by
  simp [State.entry, State.mapEntries, getElem_mapVector]

theorem bundle_setBundle (s : State) (b c : BundleId) (m : GroupSet) :
    (s.setBundle b m).bundle c = if b = c then m else s.bundle c := by
  simp [State.bundle, State.setBundle, Vector.getElem_set, Fin.ext_iff]

/-- Two states whose group records agree have the same groups. -/
theorem groups_ext {s t : State} (h : ∀ g, s.group g = t.group g) : s.groups = t.groups := by
  apply Vector.ext
  intro i hi
  exact h ⟨i, hi⟩

/-- Two states whose entries agree have the same table. -/
theorem entries_ext {s t : State} (h : ∀ i, s.entry i = t.entry i) : s.entries = t.entries := by
  apply Vector.ext
  intro i hi
  have := h (BitVec.ofNat 8 i)
  simpa [State.entry, Nat.mod_eq_of_lt hi] using this

/-- Two states whose port units agree have the same ports. -/
theorem ports_ext {s t : State} (h : ∀ p, s.portUnit p = t.portUnit p) : s.ports = t.ports :=
  PerPort.ext_get h

/-! ### Every field and every other reader after setPort -/

@[simp] theorem setPort_mode (s : State) (p : Port) (u : PortUnit) : (s.setPort p u).mode = s.mode := rfl
@[simp] theorem setPort_claim (s : State) (p : Port) (u : PortUnit) : (s.setPort p u).claim = s.claim := rfl
@[simp] theorem setPort_entries (s : State) (p : Port) (u : PortUnit) : (s.setPort p u).entries = s.entries := rfl
@[simp] theorem setPort_freeWords (s : State) (p : Port) (u : PortUnit) : (s.setPort p u).freeWords = s.freeWords := rfl
@[simp] theorem setPort_groups (s : State) (p : Port) (u : PortUnit) : (s.setPort p u).groups = s.groups := rfl
@[simp] theorem setPort_bundles (s : State) (p : Port) (u : PortUnit) : (s.setPort p u).bundles = s.bundles := rfl
@[simp] theorem setPort_committedLast (s : State) (p : Port) (u : PortUnit) : (s.setPort p u).committedLast = s.committedLast := rfl
@[simp] theorem setPort_commitPulse (s : State) (p : Port) (u : PortUnit) : (s.setPort p u).commitPulse = s.commitPulse := rfl
@[simp] theorem setPort_timing (s : State) (p : Port) (u : PortUnit) : (s.setPort p u).timing = s.timing := rfl
@[simp] theorem setPort_resetLow (s : State) (p : Port) (u : PortUnit) : (s.setPort p u).resetLow = s.resetLow := rfl
@[simp] theorem setPort_boundaries (s : State) (p : Port) (u : PortUnit) : (s.setPort p u).boundaries = s.boundaries := rfl
@[simp] theorem setPort_toMode (s : State) (p : Port) (u : PortUnit) : (s.setPort p u).toMode = s.toMode := rfl
@[simp] theorem setPort_toTiming (s : State) (p : Port) (u : PortUnit) : (s.setPort p u).toTiming = s.toTiming := rfl
@[simp] theorem setPort_now (s : State) (p : Port) (u : PortUnit) : (s.setPort p u).now = s.now := rfl
@[simp] theorem setPort_pending (s : State) (p : Port) (u : PortUnit) : (s.setPort p u).pending = s.pending := rfl
@[simp] theorem setPort_group (s : State) (p : Port) (u : PortUnit) (h : GroupId) : (s.setPort p u).group h = s.group h := rfl
@[simp] theorem setPort_entry (s : State) (p : Port) (u : PortUnit) (j : Byte) : (s.setPort p u).entry j = s.entry j := rfl
@[simp] theorem setPort_bundle (s : State) (p : Port) (u : PortUnit) (c : BundleId) : (s.setPort p u).bundle c = s.bundle c := rfl

/-! ### Every field and every other reader after setGroup -/

@[simp] theorem setGroup_mode (s : State) (g : GroupId) (r : Group) : (s.setGroup g r).mode = s.mode := rfl
@[simp] theorem setGroup_claim (s : State) (g : GroupId) (r : Group) : (s.setGroup g r).claim = s.claim := rfl
@[simp] theorem setGroup_entries (s : State) (g : GroupId) (r : Group) : (s.setGroup g r).entries = s.entries := rfl
@[simp] theorem setGroup_freeWords (s : State) (g : GroupId) (r : Group) : (s.setGroup g r).freeWords = s.freeWords := rfl
@[simp] theorem setGroup_bundles (s : State) (g : GroupId) (r : Group) : (s.setGroup g r).bundles = s.bundles := rfl
@[simp] theorem setGroup_committedLast (s : State) (g : GroupId) (r : Group) : (s.setGroup g r).committedLast = s.committedLast := rfl
@[simp] theorem setGroup_commitPulse (s : State) (g : GroupId) (r : Group) : (s.setGroup g r).commitPulse = s.commitPulse := rfl
@[simp] theorem setGroup_timing (s : State) (g : GroupId) (r : Group) : (s.setGroup g r).timing = s.timing := rfl
@[simp] theorem setGroup_ports (s : State) (g : GroupId) (r : Group) : (s.setGroup g r).ports = s.ports := rfl
@[simp] theorem setGroup_resetLow (s : State) (g : GroupId) (r : Group) : (s.setGroup g r).resetLow = s.resetLow := rfl
@[simp] theorem setGroup_boundaries (s : State) (g : GroupId) (r : Group) : (s.setGroup g r).boundaries = s.boundaries := rfl
@[simp] theorem setGroup_toMode (s : State) (g : GroupId) (r : Group) : (s.setGroup g r).toMode = s.toMode := rfl
@[simp] theorem setGroup_toTiming (s : State) (g : GroupId) (r : Group) : (s.setGroup g r).toTiming = s.toTiming := rfl
@[simp] theorem setGroup_now (s : State) (g : GroupId) (r : Group) : (s.setGroup g r).now = s.now := rfl
@[simp] theorem setGroup_pending (s : State) (g : GroupId) (r : Group) : (s.setGroup g r).pending = s.pending := rfl
@[simp] theorem setGroup_portUnit (s : State) (g : GroupId) (r : Group) (q : Port) : (s.setGroup g r).portUnit q = s.portUnit q := rfl
@[simp] theorem setGroup_entry (s : State) (g : GroupId) (r : Group) (j : Byte) : (s.setGroup g r).entry j = s.entry j := rfl
@[simp] theorem setGroup_bundle (s : State) (g : GroupId) (r : Group) (c : BundleId) : (s.setGroup g r).bundle c = s.bundle c := rfl

/-! ### Every field and every other reader after modifyGroup -/

@[simp] theorem modifyGroup_mode (s : State) (g : GroupId) (f : Group → Group) : (s.modifyGroup g f).mode = s.mode := rfl
@[simp] theorem modifyGroup_claim (s : State) (g : GroupId) (f : Group → Group) : (s.modifyGroup g f).claim = s.claim := rfl
@[simp] theorem modifyGroup_entries (s : State) (g : GroupId) (f : Group → Group) : (s.modifyGroup g f).entries = s.entries := rfl
@[simp] theorem modifyGroup_freeWords (s : State) (g : GroupId) (f : Group → Group) : (s.modifyGroup g f).freeWords = s.freeWords := rfl
@[simp] theorem modifyGroup_bundles (s : State) (g : GroupId) (f : Group → Group) : (s.modifyGroup g f).bundles = s.bundles := rfl
@[simp] theorem modifyGroup_committedLast (s : State) (g : GroupId) (f : Group → Group) : (s.modifyGroup g f).committedLast = s.committedLast := rfl
@[simp] theorem modifyGroup_commitPulse (s : State) (g : GroupId) (f : Group → Group) : (s.modifyGroup g f).commitPulse = s.commitPulse := rfl
@[simp] theorem modifyGroup_timing (s : State) (g : GroupId) (f : Group → Group) : (s.modifyGroup g f).timing = s.timing := rfl
@[simp] theorem modifyGroup_ports (s : State) (g : GroupId) (f : Group → Group) : (s.modifyGroup g f).ports = s.ports := rfl
@[simp] theorem modifyGroup_resetLow (s : State) (g : GroupId) (f : Group → Group) : (s.modifyGroup g f).resetLow = s.resetLow := rfl
@[simp] theorem modifyGroup_boundaries (s : State) (g : GroupId) (f : Group → Group) : (s.modifyGroup g f).boundaries = s.boundaries := rfl
@[simp] theorem modifyGroup_toMode (s : State) (g : GroupId) (f : Group → Group) : (s.modifyGroup g f).toMode = s.toMode := rfl
@[simp] theorem modifyGroup_toTiming (s : State) (g : GroupId) (f : Group → Group) : (s.modifyGroup g f).toTiming = s.toTiming := rfl
@[simp] theorem modifyGroup_now (s : State) (g : GroupId) (f : Group → Group) : (s.modifyGroup g f).now = s.now := rfl
@[simp] theorem modifyGroup_pending (s : State) (g : GroupId) (f : Group → Group) : (s.modifyGroup g f).pending = s.pending := rfl
@[simp] theorem modifyGroup_portUnit (s : State) (g : GroupId) (f : Group → Group) (q : Port) : (s.modifyGroup g f).portUnit q = s.portUnit q := rfl
@[simp] theorem modifyGroup_entry (s : State) (g : GroupId) (f : Group → Group) (j : Byte) : (s.modifyGroup g f).entry j = s.entry j := rfl
@[simp] theorem modifyGroup_bundle (s : State) (g : GroupId) (f : Group → Group) (c : BundleId) : (s.modifyGroup g f).bundle c = s.bundle c := rfl

/-! ### Every field and every other reader after setEntry -/

@[simp] theorem setEntry_mode (s : State) (i : Byte) (e : Option Entry) : (s.setEntry i e).mode = s.mode := rfl
@[simp] theorem setEntry_claim (s : State) (i : Byte) (e : Option Entry) : (s.setEntry i e).claim = s.claim := rfl
@[simp] theorem setEntry_freeWords (s : State) (i : Byte) (e : Option Entry) : (s.setEntry i e).freeWords = s.freeWords := rfl
@[simp] theorem setEntry_groups (s : State) (i : Byte) (e : Option Entry) : (s.setEntry i e).groups = s.groups := rfl
@[simp] theorem setEntry_bundles (s : State) (i : Byte) (e : Option Entry) : (s.setEntry i e).bundles = s.bundles := rfl
@[simp] theorem setEntry_committedLast (s : State) (i : Byte) (e : Option Entry) : (s.setEntry i e).committedLast = s.committedLast := rfl
@[simp] theorem setEntry_commitPulse (s : State) (i : Byte) (e : Option Entry) : (s.setEntry i e).commitPulse = s.commitPulse := rfl
@[simp] theorem setEntry_timing (s : State) (i : Byte) (e : Option Entry) : (s.setEntry i e).timing = s.timing := rfl
@[simp] theorem setEntry_ports (s : State) (i : Byte) (e : Option Entry) : (s.setEntry i e).ports = s.ports := rfl
@[simp] theorem setEntry_resetLow (s : State) (i : Byte) (e : Option Entry) : (s.setEntry i e).resetLow = s.resetLow := rfl
@[simp] theorem setEntry_boundaries (s : State) (i : Byte) (e : Option Entry) : (s.setEntry i e).boundaries = s.boundaries := rfl
@[simp] theorem setEntry_toMode (s : State) (i : Byte) (e : Option Entry) : (s.setEntry i e).toMode = s.toMode := rfl
@[simp] theorem setEntry_toTiming (s : State) (i : Byte) (e : Option Entry) : (s.setEntry i e).toTiming = s.toTiming := rfl
@[simp] theorem setEntry_now (s : State) (i : Byte) (e : Option Entry) : (s.setEntry i e).now = s.now := rfl
@[simp] theorem setEntry_pending (s : State) (i : Byte) (e : Option Entry) : (s.setEntry i e).pending = s.pending := rfl
@[simp] theorem setEntry_portUnit (s : State) (i : Byte) (e : Option Entry) (q : Port) : (s.setEntry i e).portUnit q = s.portUnit q := rfl
@[simp] theorem setEntry_group (s : State) (i : Byte) (e : Option Entry) (h : GroupId) : (s.setEntry i e).group h = s.group h := rfl
@[simp] theorem setEntry_bundle (s : State) (i : Byte) (e : Option Entry) (c : BundleId) : (s.setEntry i e).bundle c = s.bundle c := rfl

/-! ### Every field and every other reader after mapEntries -/

@[simp] theorem mapEntries_mode (s : State) (f : Option Entry → Option Entry) : (s.mapEntries f).mode = s.mode := rfl
@[simp] theorem mapEntries_claim (s : State) (f : Option Entry → Option Entry) : (s.mapEntries f).claim = s.claim := rfl
@[simp] theorem mapEntries_freeWords (s : State) (f : Option Entry → Option Entry) : (s.mapEntries f).freeWords = s.freeWords := rfl
@[simp] theorem mapEntries_groups (s : State) (f : Option Entry → Option Entry) : (s.mapEntries f).groups = s.groups := rfl
@[simp] theorem mapEntries_bundles (s : State) (f : Option Entry → Option Entry) : (s.mapEntries f).bundles = s.bundles := rfl
@[simp] theorem mapEntries_committedLast (s : State) (f : Option Entry → Option Entry) : (s.mapEntries f).committedLast = s.committedLast := rfl
@[simp] theorem mapEntries_commitPulse (s : State) (f : Option Entry → Option Entry) : (s.mapEntries f).commitPulse = s.commitPulse := rfl
@[simp] theorem mapEntries_timing (s : State) (f : Option Entry → Option Entry) : (s.mapEntries f).timing = s.timing := rfl
@[simp] theorem mapEntries_ports (s : State) (f : Option Entry → Option Entry) : (s.mapEntries f).ports = s.ports := rfl
@[simp] theorem mapEntries_resetLow (s : State) (f : Option Entry → Option Entry) : (s.mapEntries f).resetLow = s.resetLow := rfl
@[simp] theorem mapEntries_boundaries (s : State) (f : Option Entry → Option Entry) : (s.mapEntries f).boundaries = s.boundaries := rfl
@[simp] theorem mapEntries_toMode (s : State) (f : Option Entry → Option Entry) : (s.mapEntries f).toMode = s.toMode := rfl
@[simp] theorem mapEntries_toTiming (s : State) (f : Option Entry → Option Entry) : (s.mapEntries f).toTiming = s.toTiming := rfl
@[simp] theorem mapEntries_now (s : State) (f : Option Entry → Option Entry) : (s.mapEntries f).now = s.now := rfl
@[simp] theorem mapEntries_pending (s : State) (f : Option Entry → Option Entry) : (s.mapEntries f).pending = s.pending := rfl
@[simp] theorem mapEntries_portUnit (s : State) (f : Option Entry → Option Entry) (q : Port) : (s.mapEntries f).portUnit q = s.portUnit q := rfl
@[simp] theorem mapEntries_group (s : State) (f : Option Entry → Option Entry) (h : GroupId) : (s.mapEntries f).group h = s.group h := rfl
@[simp] theorem mapEntries_bundle (s : State) (f : Option Entry → Option Entry) (c : BundleId) : (s.mapEntries f).bundle c = s.bundle c := rfl

/-! ### Every field and every other reader after setBundle -/

@[simp] theorem setBundle_mode (s : State) (b : BundleId) (m : GroupSet) : (s.setBundle b m).mode = s.mode := rfl
@[simp] theorem setBundle_claim (s : State) (b : BundleId) (m : GroupSet) : (s.setBundle b m).claim = s.claim := rfl
@[simp] theorem setBundle_entries (s : State) (b : BundleId) (m : GroupSet) : (s.setBundle b m).entries = s.entries := rfl
@[simp] theorem setBundle_freeWords (s : State) (b : BundleId) (m : GroupSet) : (s.setBundle b m).freeWords = s.freeWords := rfl
@[simp] theorem setBundle_groups (s : State) (b : BundleId) (m : GroupSet) : (s.setBundle b m).groups = s.groups := rfl
@[simp] theorem setBundle_committedLast (s : State) (b : BundleId) (m : GroupSet) : (s.setBundle b m).committedLast = s.committedLast := rfl
@[simp] theorem setBundle_commitPulse (s : State) (b : BundleId) (m : GroupSet) : (s.setBundle b m).commitPulse = s.commitPulse := rfl
@[simp] theorem setBundle_timing (s : State) (b : BundleId) (m : GroupSet) : (s.setBundle b m).timing = s.timing := rfl
@[simp] theorem setBundle_ports (s : State) (b : BundleId) (m : GroupSet) : (s.setBundle b m).ports = s.ports := rfl
@[simp] theorem setBundle_resetLow (s : State) (b : BundleId) (m : GroupSet) : (s.setBundle b m).resetLow = s.resetLow := rfl
@[simp] theorem setBundle_boundaries (s : State) (b : BundleId) (m : GroupSet) : (s.setBundle b m).boundaries = s.boundaries := rfl
@[simp] theorem setBundle_toMode (s : State) (b : BundleId) (m : GroupSet) : (s.setBundle b m).toMode = s.toMode := rfl
@[simp] theorem setBundle_toTiming (s : State) (b : BundleId) (m : GroupSet) : (s.setBundle b m).toTiming = s.toTiming := rfl
@[simp] theorem setBundle_now (s : State) (b : BundleId) (m : GroupSet) : (s.setBundle b m).now = s.now := rfl
@[simp] theorem setBundle_pending (s : State) (b : BundleId) (m : GroupSet) : (s.setBundle b m).pending = s.pending := rfl
@[simp] theorem setBundle_portUnit (s : State) (b : BundleId) (m : GroupSet) (q : Port) : (s.setBundle b m).portUnit q = s.portUnit q := rfl
@[simp] theorem setBundle_group (s : State) (b : BundleId) (m : GroupSet) (h : GroupId) : (s.setBundle b m).group h = s.group h := rfl
@[simp] theorem setBundle_entry (s : State) (b : BundleId) (m : GroupSet) (j : Byte) : (s.setBundle b m).entry j = s.entry j := rfl

/-! ### Every field and every other reader after modifyCurrentWork -/

@[simp] theorem modifyCurrentWork_mode (s : State) (f : BoundaryWork → BoundaryWork) : (s.modifyCurrentWork f).mode = s.mode := rfl
@[simp] theorem modifyCurrentWork_claim (s : State) (f : BoundaryWork → BoundaryWork) : (s.modifyCurrentWork f).claim = s.claim := rfl
@[simp] theorem modifyCurrentWork_entries (s : State) (f : BoundaryWork → BoundaryWork) : (s.modifyCurrentWork f).entries = s.entries := rfl
@[simp] theorem modifyCurrentWork_freeWords (s : State) (f : BoundaryWork → BoundaryWork) : (s.modifyCurrentWork f).freeWords = s.freeWords := rfl
@[simp] theorem modifyCurrentWork_groups (s : State) (f : BoundaryWork → BoundaryWork) : (s.modifyCurrentWork f).groups = s.groups := rfl
@[simp] theorem modifyCurrentWork_bundles (s : State) (f : BoundaryWork → BoundaryWork) : (s.modifyCurrentWork f).bundles = s.bundles := rfl
@[simp] theorem modifyCurrentWork_committedLast (s : State) (f : BoundaryWork → BoundaryWork) : (s.modifyCurrentWork f).committedLast = s.committedLast := rfl
@[simp] theorem modifyCurrentWork_commitPulse (s : State) (f : BoundaryWork → BoundaryWork) : (s.modifyCurrentWork f).commitPulse = s.commitPulse := rfl
@[simp] theorem modifyCurrentWork_timing (s : State) (f : BoundaryWork → BoundaryWork) : (s.modifyCurrentWork f).timing = s.timing := rfl
@[simp] theorem modifyCurrentWork_ports (s : State) (f : BoundaryWork → BoundaryWork) : (s.modifyCurrentWork f).ports = s.ports := rfl
@[simp] theorem modifyCurrentWork_resetLow (s : State) (f : BoundaryWork → BoundaryWork) : (s.modifyCurrentWork f).resetLow = s.resetLow := rfl
@[simp] theorem modifyCurrentWork_toMode (s : State) (f : BoundaryWork → BoundaryWork) : (s.modifyCurrentWork f).toMode = s.toMode := rfl
@[simp] theorem modifyCurrentWork_toTiming (s : State) (f : BoundaryWork → BoundaryWork) : (s.modifyCurrentWork f).toTiming = s.toTiming := rfl
@[simp] theorem modifyCurrentWork_now (s : State) (f : BoundaryWork → BoundaryWork) : (s.modifyCurrentWork f).now = s.now := rfl
@[simp] theorem modifyCurrentWork_pending (s : State) (f : BoundaryWork → BoundaryWork) : (s.modifyCurrentWork f).pending = s.pending := rfl
@[simp] theorem modifyCurrentWork_portUnit (s : State) (f : BoundaryWork → BoundaryWork) (q : Port) : (s.modifyCurrentWork f).portUnit q = s.portUnit q := rfl
@[simp] theorem modifyCurrentWork_group (s : State) (f : BoundaryWork → BoundaryWork) (h : GroupId) : (s.modifyCurrentWork f).group h = s.group h := rfl
@[simp] theorem modifyCurrentWork_entry (s : State) (f : BoundaryWork → BoundaryWork) (j : Byte) : (s.modifyCurrentWork f).entry j = s.entry j := rfl
@[simp] theorem modifyCurrentWork_bundle (s : State) (f : BoundaryWork → BoundaryWork) (c : BundleId) : (s.modifyCurrentWork f).bundle c = s.bundle c := rfl

/-! ### Every field and every other reader after dropFinished -/

@[simp] theorem dropFinished_mode (s : State) : (s.dropFinished).mode = s.mode := rfl
@[simp] theorem dropFinished_claim (s : State) : (s.dropFinished).claim = s.claim := rfl
@[simp] theorem dropFinished_entries (s : State) : (s.dropFinished).entries = s.entries := rfl
@[simp] theorem dropFinished_freeWords (s : State) : (s.dropFinished).freeWords = s.freeWords := rfl
@[simp] theorem dropFinished_groups (s : State) : (s.dropFinished).groups = s.groups := rfl
@[simp] theorem dropFinished_bundles (s : State) : (s.dropFinished).bundles = s.bundles := rfl
@[simp] theorem dropFinished_committedLast (s : State) : (s.dropFinished).committedLast = s.committedLast := rfl
@[simp] theorem dropFinished_commitPulse (s : State) : (s.dropFinished).commitPulse = s.commitPulse := rfl
@[simp] theorem dropFinished_timing (s : State) : (s.dropFinished).timing = s.timing := rfl
@[simp] theorem dropFinished_ports (s : State) : (s.dropFinished).ports = s.ports := rfl
@[simp] theorem dropFinished_resetLow (s : State) : (s.dropFinished).resetLow = s.resetLow := rfl
@[simp] theorem dropFinished_toMode (s : State) : (s.dropFinished).toMode = s.toMode := rfl
@[simp] theorem dropFinished_toTiming (s : State) : (s.dropFinished).toTiming = s.toTiming := rfl
@[simp] theorem dropFinished_now (s : State) : (s.dropFinished).now = s.now := rfl
@[simp] theorem dropFinished_pending (s : State) : (s.dropFinished).pending = s.pending := rfl
@[simp] theorem dropFinished_portUnit (s : State) (q : Port) : (s.dropFinished).portUnit q = s.portUnit q := rfl
@[simp] theorem dropFinished_group (s : State) (h : GroupId) : (s.dropFinished).group h = s.group h := rfl
@[simp] theorem dropFinished_entry (s : State) (j : Byte) : (s.dropFinished).entry j = s.entry j := rfl
@[simp] theorem dropFinished_bundle (s : State) (c : BundleId) : (s.dropFinished).bundle c = s.bundle c := rfl

/-! ### Every field and every other reader after voidWork -/

@[simp] theorem voidWork_mode (s : State) : (s.voidWork).mode = s.mode := rfl
@[simp] theorem voidWork_claim (s : State) : (s.voidWork).claim = s.claim := rfl
@[simp] theorem voidWork_entries (s : State) : (s.voidWork).entries = s.entries := rfl
@[simp] theorem voidWork_freeWords (s : State) : (s.voidWork).freeWords = s.freeWords := rfl
@[simp] theorem voidWork_groups (s : State) : (s.voidWork).groups = s.groups := rfl
@[simp] theorem voidWork_bundles (s : State) : (s.voidWork).bundles = s.bundles := rfl
@[simp] theorem voidWork_committedLast (s : State) : (s.voidWork).committedLast = s.committedLast := rfl
@[simp] theorem voidWork_commitPulse (s : State) : (s.voidWork).commitPulse = s.commitPulse := rfl
@[simp] theorem voidWork_timing (s : State) : (s.voidWork).timing = s.timing := rfl
@[simp] theorem voidWork_ports (s : State) : (s.voidWork).ports = s.ports := rfl
@[simp] theorem voidWork_resetLow (s : State) : (s.voidWork).resetLow = s.resetLow := rfl
@[simp] theorem voidWork_toMode (s : State) : (s.voidWork).toMode = s.toMode := rfl
@[simp] theorem voidWork_toTiming (s : State) : (s.voidWork).toTiming = s.toTiming := rfl
@[simp] theorem voidWork_now (s : State) : (s.voidWork).now = s.now := rfl
@[simp] theorem voidWork_pending (s : State) : (s.voidWork).pending = s.pending := rfl
@[simp] theorem voidWork_portUnit (s : State) (q : Port) : (s.voidWork).portUnit q = s.portUnit q := rfl
@[simp] theorem voidWork_group (s : State) (h : GroupId) : (s.voidWork).group h = s.group h := rfl
@[simp] theorem voidWork_entry (s : State) (j : Byte) : (s.voidWork).entry j = s.entry j := rfl
@[simp] theorem voidWork_bundle (s : State) (c : BundleId) : (s.voidWork).bundle c = s.bundle c := rfl

/-! ### Every field and every other reader after endTransaction -/

@[simp] theorem endTransaction_mode (s : State) (p : Port) : (s.endTransaction p).mode = s.mode := rfl
@[simp] theorem endTransaction_claim (s : State) (p : Port) : (s.endTransaction p).claim = s.claim := rfl
@[simp] theorem endTransaction_entries (s : State) (p : Port) : (s.endTransaction p).entries = s.entries := rfl
@[simp] theorem endTransaction_freeWords (s : State) (p : Port) : (s.endTransaction p).freeWords = s.freeWords := rfl
@[simp] theorem endTransaction_groups (s : State) (p : Port) : (s.endTransaction p).groups = s.groups := rfl
@[simp] theorem endTransaction_bundles (s : State) (p : Port) : (s.endTransaction p).bundles = s.bundles := rfl
@[simp] theorem endTransaction_committedLast (s : State) (p : Port) : (s.endTransaction p).committedLast = s.committedLast := rfl
@[simp] theorem endTransaction_commitPulse (s : State) (p : Port) : (s.endTransaction p).commitPulse = s.commitPulse := rfl
@[simp] theorem endTransaction_timing (s : State) (p : Port) : (s.endTransaction p).timing = s.timing := rfl
@[simp] theorem endTransaction_resetLow (s : State) (p : Port) : (s.endTransaction p).resetLow = s.resetLow := rfl
@[simp] theorem endTransaction_boundaries (s : State) (p : Port) : (s.endTransaction p).boundaries = s.boundaries := rfl
@[simp] theorem endTransaction_toMode (s : State) (p : Port) : (s.endTransaction p).toMode = s.toMode := rfl
@[simp] theorem endTransaction_toTiming (s : State) (p : Port) : (s.endTransaction p).toTiming = s.toTiming := rfl
@[simp] theorem endTransaction_now (s : State) (p : Port) : (s.endTransaction p).now = s.now := rfl
@[simp] theorem endTransaction_pending (s : State) (p : Port) : (s.endTransaction p).pending = s.pending := rfl
@[simp] theorem endTransaction_group (s : State) (p : Port) (h : GroupId) : (s.endTransaction p).group h = s.group h := rfl
@[simp] theorem endTransaction_entry (s : State) (p : Port) (j : Byte) : (s.endTransaction p).entry j = s.entry j := rfl
@[simp] theorem endTransaction_bundle (s : State) (p : Port) (c : BundleId) : (s.endTransaction p).bundle c = s.bundle c := rfl

/-! ### Every field and every other reader after respond -/

@[simp] theorem respond_mode (s : State) (p : Port) (r : Response) : (s.respond p r).mode = s.mode := rfl
@[simp] theorem respond_claim (s : State) (p : Port) (r : Response) : (s.respond p r).claim = s.claim := rfl
@[simp] theorem respond_entries (s : State) (p : Port) (r : Response) : (s.respond p r).entries = s.entries := rfl
@[simp] theorem respond_freeWords (s : State) (p : Port) (r : Response) : (s.respond p r).freeWords = s.freeWords := rfl
@[simp] theorem respond_groups (s : State) (p : Port) (r : Response) : (s.respond p r).groups = s.groups := rfl
@[simp] theorem respond_bundles (s : State) (p : Port) (r : Response) : (s.respond p r).bundles = s.bundles := rfl
@[simp] theorem respond_committedLast (s : State) (p : Port) (r : Response) : (s.respond p r).committedLast = s.committedLast := rfl
@[simp] theorem respond_commitPulse (s : State) (p : Port) (r : Response) : (s.respond p r).commitPulse = s.commitPulse := rfl
@[simp] theorem respond_timing (s : State) (p : Port) (r : Response) : (s.respond p r).timing = s.timing := rfl
@[simp] theorem respond_resetLow (s : State) (p : Port) (r : Response) : (s.respond p r).resetLow = s.resetLow := rfl
@[simp] theorem respond_boundaries (s : State) (p : Port) (r : Response) : (s.respond p r).boundaries = s.boundaries := rfl
@[simp] theorem respond_toMode (s : State) (p : Port) (r : Response) : (s.respond p r).toMode = s.toMode := rfl
@[simp] theorem respond_toTiming (s : State) (p : Port) (r : Response) : (s.respond p r).toTiming = s.toTiming := rfl
@[simp] theorem respond_now (s : State) (p : Port) (r : Response) : (s.respond p r).now = s.now := rfl
@[simp] theorem respond_pending (s : State) (p : Port) (r : Response) : (s.respond p r).pending = s.pending := rfl
@[simp] theorem respond_group (s : State) (p : Port) (r : Response) (h : GroupId) : (s.respond p r).group h = s.group h := rfl
@[simp] theorem respond_entry (s : State) (p : Port) (r : Response) (j : Byte) : (s.respond p r).entry j = s.entry j := rfl
@[simp] theorem respond_bundle (s : State) (p : Port) (r : Response) (c : BundleId) : (s.respond p r).bundle c = s.bundle c := rfl

/-! ### Groups changed by a function -/

@[simp] theorem group_modifyGroup_self (s : State) (g : GroupId) (f : Group → Group) :
    (s.modifyGroup g f).group g = f (s.group g) :=
  group_setGroup_self _ _ _

theorem group_modifyGroup (s : State) (g h : GroupId) (f : Group → Group) :
    (s.modifyGroup g f).group h = if g = h then f (s.group g) else s.group h :=
  group_setGroup _ _ _ _

/-! ### The port of a transaction -/

theorem portUnit_endTransaction (s : State) (p q : Port) :
    (s.endTransaction p).portUnit q = if p = q then { s.portUnit p with transaction := .idle } else s.portUnit q :=
  portUnit_setPort _ _ _ _

theorem portUnit_respond (s : State) (p q : Port) (r : Response) :
    (s.respond p r).portUnit q = if p = q then { s.portUnit p with response := r } else s.portUnit q :=
  portUnit_setPort _ _ _ _

@[simp] theorem isOnline_endTransaction (s : State) (p q : Port) : (s.endTransaction p).isOnline q = s.isOnline q := by
  unfold State.isOnline
  rw [portUnit_endTransaction]
  split
  · next h => subst h; rfl
  · rfl

@[simp] theorem isOnline_respond (s : State) (p q : Port) (r : Response) : (s.respond p r).isOnline q = s.isOnline q := by
  unfold State.isOnline
  rw [portUnit_respond]
  split
  · next h => subst h; rfl
  · rfl

end Sys2Proof.Machine
end

