-- ==== Sys2Proof/Laws/Ops.lean ====
section
/-! SUPPORT. One lemma for each shared operation that says once what it can do: notices, the end of a transaction, the
taking of a command, leases, discards, the teardown, commits, deferrals, boundaries and the device reset. -/

namespace Sys2Proof.Machine

open Sys2Proof

/-! ### Queues (R170) -/

theorem length_raiseTail (q : List QueuedNotice) : (raiseTail q).length = q.length := by
  induction q using raiseTail.induct with
  | case1 => rfl
  | case2 => rfl
  | case3 => rfl
  | case4 x y rest ih => simpa [raiseTail] using ih

/-- Raising the tail changes no place but the last, and leaves an OVERFLOW an OVERFLOW. -/
theorem isOverflow_raiseTail (q : List QueuedNotice) (i : Nat) (x : QueuedNotice) (h : (raiseTail q)[i]? = some x) :
    ∃ y, q[i]? = some y ∧ y.isOverflow = x.isOverflow := by
  induction q using raiseTail.induct generalizing i with
  | case1 => simp [raiseTail] at h
  | case2 c f =>
    cases i <;> simp [raiseTail] at h ⊢
    subst h; rfl
  | case3 n f =>
    cases i <;> simp [raiseTail] at h ⊢
    subst h; rfl
  | case4 a b rest ih =>
    cases i with
    | zero => simp only [raiseTail, List.getElem?_cons_zero, Option.some.injEq] at h ⊢; exact ⟨a, rfl, by rw [h]⟩
    | succ i =>
      simp only [raiseTail, List.getElem?_cons_succ] at h ⊢
      exact ih i h

/-- What an arrival makes of a queue, by the number of notices it holds (R170). -/
theorem enqueue_cases (q : List QueuedNotice) (n : Notice) (f : Half) :
    (q.length ≤ 30 ∧ enqueue q n f = q ++ [.notice n f])
    ∨ (q.length = 31 ∧ enqueue q n f = q ++ [.overflow 1#8 f])
    ∨ (32 ≤ q.length ∧ enqueue q n f = raiseTail q) := by
  have hcap : Config.queueCapacity = 32 := rfl
  unfold enqueue
  rw [hcap]
  by_cases h1 : q.length + 1 < 32
  · left; exact ⟨by omega, if_pos h1⟩
  · by_cases h2 : q.length + 1 = 32
    · right; left; exact ⟨by omega, by rw [if_neg h1, if_pos h2]⟩
    · right; right; exact ⟨by omega, by rw [if_neg h1, if_neg h2]⟩

/-- An arrival keeps a queue within its bound (R170). -/
theorem enqueue_bounded {q : List QueuedNotice} (h : QueueBounded q) (n : Notice) (f : Half) :
    QueueBounded (enqueue q n f) := by
  obtain ⟨hl, ho⟩ := h
  rcases enqueue_cases q n f with ⟨h30, he⟩ | ⟨h31, he⟩ | ⟨h32, he⟩ <;> rw [he]
  · refine ⟨by simp; omega, fun x hx => ?_⟩
    rw [List.getElem?_eq_none (by simp; omega)] at hx
    cases hx
  · refine ⟨by simp; omega, fun x hx => ?_⟩
    rw [List.getElem?_append_right (by omega), h31] at hx
    simp at hx
    subst hx; rfl
  · refine ⟨by rw [length_raiseTail]; exact hl, fun x hx => ?_⟩
    obtain ⟨y, hy, hxy⟩ := isOverflow_raiseTail q 31 x hx
    rw [← hxy]; exact ho y hy

/-! ### Notices: only port queues change -/

/-- A notice for a port: appended, dropped or counted at an ONLINE port's queue, nothing at an OFFLINE port (R170, R171). -/
theorem portUnit_notify (s : State) (p q : Port) (n : Notice) :
    (s.notify p n).portUnit q =
      if p = q ∧ (s.portUnit p).session = .online then
        { s.portUnit p with queue := enqueue (s.portUnit p).queue n s.timing.frameNumber }
      else s.portUnit q := by
  unfold State.notify
  by_cases hs : (s.portUnit p).session = .online
  · rw [if_pos hs, portUnit_setPort]
    by_cases h : p = q
    · subst h; simp [hs]
    · simp [h]
  · rw [if_neg hs, if_neg (fun h => hs h.2)]

theorem notify_offline {s : State} {p : Port} (n : Notice) (h : (s.portUnit p).session = .offline) : s.notify p n = s := by
  simp [State.notify, h]

theorem notify_eq (s : State) (p : Port) (n : Notice) : s.notify p n = { s with ports := (s.notify p n).ports } := by
  unfold State.notify
  split <;> rfl

theorem notifyOptional_eq (s : State) (p : Option Port) (n : Notice) :
    s.notifyOptional p n = { s with ports := (s.notifyOptional p n).ports } := by
  cases p with
  | none => rfl
  | some p => exact notify_eq s p n

theorem notifyEach_eq (s : State) (ports : List Port) (n : Port → Notice) :
    s.notifyEach ports n = { s with ports := (s.notifyEach ports n).ports } := by
  unfold State.notifyEach
  induction ports generalizing s with
  | nil => rfl
  | cons p rest ih =>
    simp only [List.foldl_cons]
    rw [ih (s.notify p (n p)), notify_eq s p (n p)]

theorem notifyMode_eq (s : State) (new old : Mode) :
    s.notifyMode new old = { s with ports := (s.notifyMode new old).ports } :=
  notifyEach_eq _ _ _

@[simp] theorem notify_mode (s : State) (p : Port) (n : Notice) : (s.notify p n).mode = s.mode := by rw [notify_eq]
@[simp] theorem notify_claim (s : State) (p : Port) (n : Notice) : (s.notify p n).claim = s.claim := by rw [notify_eq]
@[simp] theorem notify_entries (s : State) (p : Port) (n : Notice) : (s.notify p n).entries = s.entries := by rw [notify_eq]
@[simp] theorem notify_freeWords (s : State) (p : Port) (n : Notice) : (s.notify p n).freeWords = s.freeWords := by rw [notify_eq]
@[simp] theorem notify_groups (s : State) (p : Port) (n : Notice) : (s.notify p n).groups = s.groups := by rw [notify_eq]
@[simp] theorem notify_bundles (s : State) (p : Port) (n : Notice) : (s.notify p n).bundles = s.bundles := by rw [notify_eq]
@[simp] theorem notify_committedLast (s : State) (p : Port) (n : Notice) : (s.notify p n).committedLast = s.committedLast := by rw [notify_eq]
@[simp] theorem notify_commitPulse (s : State) (p : Port) (n : Notice) : (s.notify p n).commitPulse = s.commitPulse := by rw [notify_eq]
@[simp] theorem notify_timing (s : State) (p : Port) (n : Notice) : (s.notify p n).timing = s.timing := by rw [notify_eq]
@[simp] theorem notify_resetLow (s : State) (p : Port) (n : Notice) : (s.notify p n).resetLow = s.resetLow := by rw [notify_eq]
@[simp] theorem notify_boundaries (s : State) (p : Port) (n : Notice) : (s.notify p n).boundaries = s.boundaries := by rw [notify_eq]
@[simp] theorem notify_toMode (s : State) (p : Port) (n : Notice) : (s.notify p n).toMode = s.toMode := by rw [notify_eq]
@[simp] theorem notify_toTiming (s : State) (p : Port) (n : Notice) : (s.notify p n).toTiming = s.toTiming := by rw [notify_eq]
@[simp] theorem notify_now (s : State) (p : Port) (n : Notice) : (s.notify p n).now = s.now := by rw [notify_eq]
@[simp] theorem notify_pending (s : State) (p : Port) (n : Notice) : (s.notify p n).pending = s.pending := by rw [notify_eq]
@[simp] theorem notify_group (s : State) (p : Port) (n : Notice) (h : GroupId) : (s.notify p n).group h = s.group h := by rw [notify_eq]; rfl
@[simp] theorem notify_entry (s : State) (p : Port) (n : Notice) (j : Byte) : (s.notify p n).entry j = s.entry j := by rw [notify_eq]; rfl
@[simp] theorem notify_bundle (s : State) (p : Port) (n : Notice) (c : BundleId) : (s.notify p n).bundle c = s.bundle c := by rw [notify_eq]; rfl

@[simp] theorem notifyOptional_mode (s : State) (p : Option Port) (n : Notice) : (s.notifyOptional p n).mode = s.mode := by rw [notifyOptional_eq]
@[simp] theorem notifyOptional_claim (s : State) (p : Option Port) (n : Notice) : (s.notifyOptional p n).claim = s.claim := by rw [notifyOptional_eq]
@[simp] theorem notifyOptional_entries (s : State) (p : Option Port) (n : Notice) : (s.notifyOptional p n).entries = s.entries := by rw [notifyOptional_eq]
@[simp] theorem notifyOptional_freeWords (s : State) (p : Option Port) (n : Notice) : (s.notifyOptional p n).freeWords = s.freeWords := by rw [notifyOptional_eq]
@[simp] theorem notifyOptional_groups (s : State) (p : Option Port) (n : Notice) : (s.notifyOptional p n).groups = s.groups := by rw [notifyOptional_eq]
@[simp] theorem notifyOptional_bundles (s : State) (p : Option Port) (n : Notice) : (s.notifyOptional p n).bundles = s.bundles := by rw [notifyOptional_eq]
@[simp] theorem notifyOptional_committedLast (s : State) (p : Option Port) (n : Notice) : (s.notifyOptional p n).committedLast = s.committedLast := by rw [notifyOptional_eq]
@[simp] theorem notifyOptional_commitPulse (s : State) (p : Option Port) (n : Notice) : (s.notifyOptional p n).commitPulse = s.commitPulse := by rw [notifyOptional_eq]
@[simp] theorem notifyOptional_timing (s : State) (p : Option Port) (n : Notice) : (s.notifyOptional p n).timing = s.timing := by rw [notifyOptional_eq]
@[simp] theorem notifyOptional_resetLow (s : State) (p : Option Port) (n : Notice) : (s.notifyOptional p n).resetLow = s.resetLow := by rw [notifyOptional_eq]
@[simp] theorem notifyOptional_boundaries (s : State) (p : Option Port) (n : Notice) : (s.notifyOptional p n).boundaries = s.boundaries := by rw [notifyOptional_eq]
@[simp] theorem notifyOptional_toMode (s : State) (p : Option Port) (n : Notice) : (s.notifyOptional p n).toMode = s.toMode := by rw [notifyOptional_eq]
@[simp] theorem notifyOptional_toTiming (s : State) (p : Option Port) (n : Notice) : (s.notifyOptional p n).toTiming = s.toTiming := by rw [notifyOptional_eq]
@[simp] theorem notifyOptional_now (s : State) (p : Option Port) (n : Notice) : (s.notifyOptional p n).now = s.now := by rw [notifyOptional_eq]
@[simp] theorem notifyOptional_pending (s : State) (p : Option Port) (n : Notice) : (s.notifyOptional p n).pending = s.pending := by rw [notifyOptional_eq]
@[simp] theorem notifyOptional_group (s : State) (p : Option Port) (n : Notice) (h : GroupId) : (s.notifyOptional p n).group h = s.group h := by rw [notifyOptional_eq]; rfl
@[simp] theorem notifyOptional_entry (s : State) (p : Option Port) (n : Notice) (j : Byte) : (s.notifyOptional p n).entry j = s.entry j := by rw [notifyOptional_eq]; rfl
@[simp] theorem notifyOptional_bundle (s : State) (p : Option Port) (n : Notice) (c : BundleId) : (s.notifyOptional p n).bundle c = s.bundle c := by rw [notifyOptional_eq]; rfl

@[simp] theorem notifyEach_mode (s : State) (ports : List Port) (n : Port → Notice) : (s.notifyEach ports n).mode = s.mode := by rw [notifyEach_eq]
@[simp] theorem notifyEach_claim (s : State) (ports : List Port) (n : Port → Notice) : (s.notifyEach ports n).claim = s.claim := by rw [notifyEach_eq]
@[simp] theorem notifyEach_entries (s : State) (ports : List Port) (n : Port → Notice) : (s.notifyEach ports n).entries = s.entries := by rw [notifyEach_eq]
@[simp] theorem notifyEach_freeWords (s : State) (ports : List Port) (n : Port → Notice) : (s.notifyEach ports n).freeWords = s.freeWords := by rw [notifyEach_eq]
@[simp] theorem notifyEach_groups (s : State) (ports : List Port) (n : Port → Notice) : (s.notifyEach ports n).groups = s.groups := by rw [notifyEach_eq]
@[simp] theorem notifyEach_bundles (s : State) (ports : List Port) (n : Port → Notice) : (s.notifyEach ports n).bundles = s.bundles := by rw [notifyEach_eq]
@[simp] theorem notifyEach_committedLast (s : State) (ports : List Port) (n : Port → Notice) : (s.notifyEach ports n).committedLast = s.committedLast := by rw [notifyEach_eq]
@[simp] theorem notifyEach_commitPulse (s : State) (ports : List Port) (n : Port → Notice) : (s.notifyEach ports n).commitPulse = s.commitPulse := by rw [notifyEach_eq]
@[simp] theorem notifyEach_timing (s : State) (ports : List Port) (n : Port → Notice) : (s.notifyEach ports n).timing = s.timing := by rw [notifyEach_eq]
@[simp] theorem notifyEach_resetLow (s : State) (ports : List Port) (n : Port → Notice) : (s.notifyEach ports n).resetLow = s.resetLow := by rw [notifyEach_eq]
@[simp] theorem notifyEach_boundaries (s : State) (ports : List Port) (n : Port → Notice) : (s.notifyEach ports n).boundaries = s.boundaries := by rw [notifyEach_eq]
@[simp] theorem notifyEach_toMode (s : State) (ports : List Port) (n : Port → Notice) : (s.notifyEach ports n).toMode = s.toMode := by rw [notifyEach_eq]
@[simp] theorem notifyEach_toTiming (s : State) (ports : List Port) (n : Port → Notice) : (s.notifyEach ports n).toTiming = s.toTiming := by rw [notifyEach_eq]
@[simp] theorem notifyEach_now (s : State) (ports : List Port) (n : Port → Notice) : (s.notifyEach ports n).now = s.now := by rw [notifyEach_eq]
@[simp] theorem notifyEach_pending (s : State) (ports : List Port) (n : Port → Notice) : (s.notifyEach ports n).pending = s.pending := by rw [notifyEach_eq]
@[simp] theorem notifyEach_group (s : State) (ports : List Port) (n : Port → Notice) (h : GroupId) : (s.notifyEach ports n).group h = s.group h := by rw [notifyEach_eq]; rfl
@[simp] theorem notifyEach_entry (s : State) (ports : List Port) (n : Port → Notice) (j : Byte) : (s.notifyEach ports n).entry j = s.entry j := by rw [notifyEach_eq]; rfl
@[simp] theorem notifyEach_bundle (s : State) (ports : List Port) (n : Port → Notice) (c : BundleId) : (s.notifyEach ports n).bundle c = s.bundle c := by rw [notifyEach_eq]; rfl

@[simp] theorem notifyMode_mode (s : State) (new old : Mode) : (s.notifyMode new old).mode = s.mode := by rw [notifyMode_eq]
@[simp] theorem notifyMode_claim (s : State) (new old : Mode) : (s.notifyMode new old).claim = s.claim := by rw [notifyMode_eq]
@[simp] theorem notifyMode_entries (s : State) (new old : Mode) : (s.notifyMode new old).entries = s.entries := by rw [notifyMode_eq]
@[simp] theorem notifyMode_freeWords (s : State) (new old : Mode) : (s.notifyMode new old).freeWords = s.freeWords := by rw [notifyMode_eq]
@[simp] theorem notifyMode_groups (s : State) (new old : Mode) : (s.notifyMode new old).groups = s.groups := by rw [notifyMode_eq]
@[simp] theorem notifyMode_bundles (s : State) (new old : Mode) : (s.notifyMode new old).bundles = s.bundles := by rw [notifyMode_eq]
@[simp] theorem notifyMode_committedLast (s : State) (new old : Mode) : (s.notifyMode new old).committedLast = s.committedLast := by rw [notifyMode_eq]
@[simp] theorem notifyMode_commitPulse (s : State) (new old : Mode) : (s.notifyMode new old).commitPulse = s.commitPulse := by rw [notifyMode_eq]
@[simp] theorem notifyMode_timing (s : State) (new old : Mode) : (s.notifyMode new old).timing = s.timing := by rw [notifyMode_eq]
@[simp] theorem notifyMode_resetLow (s : State) (new old : Mode) : (s.notifyMode new old).resetLow = s.resetLow := by rw [notifyMode_eq]
@[simp] theorem notifyMode_boundaries (s : State) (new old : Mode) : (s.notifyMode new old).boundaries = s.boundaries := by rw [notifyMode_eq]
@[simp] theorem notifyMode_toMode (s : State) (new old : Mode) : (s.notifyMode new old).toMode = s.toMode := by rw [notifyMode_eq]
@[simp] theorem notifyMode_toTiming (s : State) (new old : Mode) : (s.notifyMode new old).toTiming = s.toTiming := by rw [notifyMode_eq]
@[simp] theorem notifyMode_now (s : State) (new old : Mode) : (s.notifyMode new old).now = s.now := by rw [notifyMode_eq]
@[simp] theorem notifyMode_pending (s : State) (new old : Mode) : (s.notifyMode new old).pending = s.pending := by rw [notifyMode_eq]
@[simp] theorem notifyMode_group (s : State) (new old : Mode) (h : GroupId) : (s.notifyMode new old).group h = s.group h := by rw [notifyMode_eq]; rfl
@[simp] theorem notifyMode_entry (s : State) (new old : Mode) (j : Byte) : (s.notifyMode new old).entry j = s.entry j := by rw [notifyMode_eq]; rfl
@[simp] theorem notifyMode_bundle (s : State) (new old : Mode) (c : BundleId) : (s.notifyMode new old).bundle c = s.bundle c := by rw [notifyMode_eq]; rfl

@[simp] theorem isOnline_notify (s : State) (p q : Port) (n : Notice) : (s.notify p n).isOnline q = s.isOnline q := by
  unfold State.isOnline
  rw [portUnit_notify]
  split
  · next h => obtain ⟨rfl, _⟩ := h; rfl
  · rfl

@[simp] theorem isOnline_notifyOptional (s : State) (p : Option Port) (q : Port) (n : Notice) :
    (s.notifyOptional p n).isOnline q = s.isOnline q := by
  cases p with
  | none => rfl
  | some p => exact isOnline_notify s p q n

@[simp] theorem isOnline_notifyEach (s : State) (ports : List Port) (n : Port → Notice) (q : Port) :
    (s.notifyEach ports n).isOnline q = s.isOnline q := by
  unfold State.notifyEach
  induction ports generalizing s with
  | nil => rfl
  | cons p rest ih => simp only [List.foldl_cons]; rw [ih, isOnline_notify]

@[simp] theorem isOnline_notifyMode (s : State) (new old : Mode) (q : Port) :
    (s.notifyMode new old).isOnline q = s.isOnline q :=
  isOnline_notifyEach _ _ _ _

/-- Notices to the ports of a list keep every queue within its bound (R170). -/
theorem notify_bounded {s : State} (h : QueuesBounded s) (p : Port) (n : Notice) : QueuesBounded (s.notify p n) := by
  intro q
  rw [portUnit_notify]
  split
  · next hq => exact enqueue_bounded (h p) _ _
  · exact h q

theorem notifyOptional_bounded {s : State} (h : QueuesBounded s) (p : Option Port) (n : Notice) :
    QueuesBounded (s.notifyOptional p n) := by
  cases p with
  | none => exact h
  | some p => exact notify_bounded h p n

theorem notifyEach_bounded {s : State} (h : QueuesBounded s) (ports : List Port) (n : Port → Notice) :
    QueuesBounded (s.notifyEach ports n) := by
  unfold State.notifyEach
  induction ports generalizing s with
  | nil => exact h
  | cons p rest ih => exact ih (notify_bounded h p (n p))

/-! ### The end of a transaction and the taking of a command (R159 to R164) -/

/-- A command on a port that takes it: the owning block's answer into the buffer (R163). -/
theorem takeCommand_taken {p : Port} {c : Command} {tag : Byte} {L : Nat} {body : State → Reply} {s : State}
    (hlost : s.transactionLost p = false) (hport : s.isOnline p = true ∨ c.openToOffline = true)
    (hL : c.accepts L = true) :
    takeCommand p c tag L body s =
      if (body (s.endTransaction p)).placed then
        (body (s.endTransaction p)).state.respond p
          ⟨tag, (body (s.endTransaction p)).status, (body (s.endTransaction p)).data⟩
      else (body (s.endTransaction p)).state := by
  unfold takeCommand
  have hc : (!s.isOnline p && !c.openToOffline) = false := by
    rcases hport with h | h <;> simp [h]
  simp [hlost, hc, hL]

/-- A command on a port whose transaction is lost is not taken (R156, R157). -/
theorem takeCommand_lost {p : Port} {c : Command} {tag : Byte} {L : Nat} {body : State → Reply} {s : State}
    (hlost : s.transactionLost p = true) : takeCommand p c tag L body s = s.endTransaction p := by
  simp [takeCommand, hlost]

/-- A command on an OFFLINE port, but JOIN, STATUS and NOP, is answered OFFLINE (R161 check 6, R166). -/
theorem takeCommand_offline {p : Port} {c : Command} {tag : Byte} {L : Nat} {body : State → Reply} {s : State}
    (hlost : s.transactionLost p = false) (hp : s.isOnline p = false) (hc : c.openToOffline = false) :
    takeCommand p c tag L body s = (s.endTransaction p).respond p (rejection s tag (.offline c)) := by
  simp [takeCommand, hlost, hp, hc]

/-- All that taking a command can come to: the transaction is over with nothing taken, the port unit's rejection, or the
block's answer. -/
theorem takeCommand_cases (p : Port) (c : Command) (tag : Byte) (L : Nat) (body : State → Reply) (s : State) :
    takeCommand p c tag L body s = s.endTransaction p
    ∨ (∃ cause, takeCommand p c tag L body s = (s.endTransaction p).respond p (rejection s tag cause))
    ∨ (s.transactionLost p = false ∧ (s.isOnline p = true ∨ c.openToOffline = true) ∧ c.accepts L = true
      ∧ takeCommand p c tag L body s =
        if (body (s.endTransaction p)).placed then
          (body (s.endTransaction p)).state.respond p
            ⟨tag, (body (s.endTransaction p)).status, (body (s.endTransaction p)).data⟩
        else (body (s.endTransaction p)).state) := by
  cases hlost : s.transactionLost p with
  | true => left; exact takeCommand_lost hlost
  | false =>
    right
    by_cases hport : s.isOnline p = true ∨ c.openToOffline = true
    · cases hL : c.accepts L with
      | true => right; exact ⟨rfl, hport, rfl, takeCommand_taken hlost hport hL⟩
      | false =>
        left
        have hc : (!s.isOnline p && !c.openToOffline) = false := by
          rcases hport with h | h <;> simp [h]
        exact ⟨.argument c, by simp [takeCommand, hlost, hc, hL]⟩
    · left
      simp only [not_or, Bool.not_eq_true] at hport
      exact ⟨.offline c, takeCommand_offline hlost hport.1 hport.2⟩

/-- A property that the end of a transaction, a new response and a block's answer keep is kept by taking a command. -/
theorem takeCommand_keeps {P : State → Prop} {p : Port} {c : Command} {tag : Byte} {L : Nat} {body : State → Reply}
    {s : State} (hend : P (s.endTransaction p)) (hresp : ∀ t r, P t → P (t.respond p r))
    (hbody : P (body (s.endTransaction p)).state) : P (takeCommand p c tag L body s) := by
  rcases takeCommand_cases p c tag L body s with h | ⟨cause, h⟩ | ⟨_, _, _, h⟩ <;> rw [h]
  · exact hend
  · exact hresp _ _ hend
  · split
    · exact hresp _ _ hbody
    · exact hbody

/-- The checks of R145: MODE, NOCLAIM, or the command's own checks. -/
theorem claimed_cases (p : Port) (data : List Byte) (body : State → Reply) (s : State) :
    (s.mode ≠ .config ∧ claimed p data body s = answer s .mode data)
    ∨ (s.mode = .config ∧ s.claim ≠ some p ∧ claimed p data body s = answer s .noClaim data)
    ∨ (s.mode = .config ∧ s.claim = some p ∧ claimed p data body s = body s) := by
  unfold claimed
  by_cases hm : s.mode = .config
  · by_cases hc : s.claim = some p
    · right; right; simp [hm, hc]
    · right; left; simp [hm, hc]
  · left; simp [hm]

/-! ### Leases (R45) -/

/-- A lease freed with no port waiting is free (R43). -/
theorem freeLease_nil {g : GroupId} {event : FreeingEvent} {s : State} (h : (s.group g).waitQueue = []) :
    freeLease g event s = s.setGroup g { s.group g with lessee := none, patience := 0#8 } := by
  simp [freeLease, h]

/-- A lease freed with ports waiting passes to the head of the queue, which is told so (R45). -/
theorem freeLease_cons {g : GroupId} {event : FreeingEvent} {s : State} {next : Port} {rest : List Port}
    (h : (s.group g).waitQueue = next :: rest) :
    freeLease g event s =
      (s.setGroup g { s.group g with lessee := some next, waitQueue := rest, patience := 0#8 }).notify next
        (.leaseGranted g event) := by
  simp [freeLease, h]

/-- The group record after its lease is freed, whether or not a port was waiting (R45). -/
theorem group_freeLease (g h : GroupId) (event : FreeingEvent) (s : State) :
    (freeLease g event s).group h =
      if g = h then
        { s.group g with
          lessee := (s.group g).waitQueue.head?
          waitQueue := (s.group g).waitQueue.tail
          patience := 0#8 }
      else s.group h := by
  cases hq : (s.group g).waitQueue with
  | nil =>
    rw [freeLease_nil hq, group_setGroup]
    split
    · next hg => simp [hq]
    · rfl
  | cons next rest => rw [freeLease_cons hq, notify_group, group_setGroup]; rfl

theorem freeLease_eq (g : GroupId) (event : FreeingEvent) (s : State) :
    freeLease g event s = { s with groups := (freeLease g event s).groups, ports := (freeLease g event s).ports } := by
  cases hq : (s.group g).waitQueue with
  | nil => rw [freeLease_nil hq]; rfl
  | cons next rest => rw [freeLease_cons hq, notify_eq]; rfl

@[simp] theorem isOnline_freeLease (g : GroupId) (event : FreeingEvent) (s : State) (q : Port) :
    (freeLease g event s).isOnline q = s.isOnline q := by
  cases hq : (s.group g).waitQueue with
  | nil => rw [freeLease_nil hq]; rfl
  | cons next rest => rw [freeLease_cons hq, isOnline_notify]; rfl

@[simp] theorem freeLease_entry (g : GroupId) (event : FreeingEvent) (s : State) (i : Byte) :
    (freeLease g event s).entry i = s.entry i := by
  rw [freeLease_eq]; rfl

/-! ### Discards (R72) -/

theorem entry_discardSet (g : GroupId) (s : State) (i : Byte) :
    (discardSet g s).entry i = discardEntry g (s.entry i) := by
  simp [discardSet]

theorem group_discardSet (g h : GroupId) (s : State) :
    (discardSet g s).group h = if g = h then { clearSealed (s.group g) with state := .idle } else s.group h := by
  simp [discardSet, group_modifyGroup]

@[simp] theorem isOnline_discardSet (g : GroupId) (s : State) (q : Port) : (discardSet g s).isOnline q = s.isOnline q := rfl

/-- A discard changes the entries and the groups, and nothing else. -/
theorem discardSet_eq (g : GroupId) (s : State) :
    discardSet g s = { s with entries := (discardSet g s).entries, groups := (discardSet g s).groups } := rfl

/-- What a discard makes of one record: a VALUE entry of the group loses its staged value (R21). -/
theorem discardEntry_value (g : GroupId) (v : ValueEntry) :
    discardEntry g (some (.value v)) =
      some (.value { v with staged := if v.group = g then none else v.staged }) := by
  unfold discardEntry belongsTo clearStaged Entry.group
  by_cases h : v.group = g <;> simp [h]

theorem discardEntry_fan (g : GroupId) (f : FanEntry) : discardEntry g (some (.fan f)) = some (.fan f) := by
  unfold discardEntry clearStaged
  split <;> rfl

theorem discardEntry_none (g : GroupId) : discardEntry g none = none := by
  unfold discardEntry clearStaged
  split <;> rfl

/-! ### The teardown (R36, R54, R153) -/

theorem teardownDiscardNotice_eq (g : GroupId) (r : Group) (s : State) :
    teardownDiscardNotice g r s = { s with ports := (teardownDiscardNotice g r s).ports } := by
  unfold teardownDiscardNotice
  split
  · rfl
  · exact notifyOptional_eq _ _ _
  · exact notifyOptional_eq _ _ _

@[simp] theorem isOnline_teardownDiscardNotice (g : GroupId) (r : Group) (s : State) (q : Port) :
    (teardownDiscardNotice g r s).isOnline q = s.isOnline q := by
  unfold teardownDiscardNotice
  split <;> simp

/-- A group record after teardown (R36). -/
def tornDown (r : Group) : Group :=
  { clearSealed r with
    state := .idle, lessee := none, waitQueue := [], patience := 0#8, outstanding := PortSet.none, ackAge := 0#8 }

theorem group_teardownGroup (s : State) (g h : GroupId) :
    (teardownGroup s g).group h = if g = h then tornDown (s.group g) else s.group h := by
  unfold teardownGroup
  simp only
  rw [group_modifyGroup]
  split
  · next hg =>
    subst hg
    rw [group_discardSet, if_pos rfl, teardownDiscardNotice_eq]
    simp [State.group, tornDown, clearSealed]
  · next hg =>
    rw [group_discardSet, if_neg hg, teardownDiscardNotice_eq]
    simp [State.group]

theorem entry_teardownGroup (s : State) (g : GroupId) (i : Byte) :
    (teardownGroup s g).entry i = discardEntry g (s.entry i) := by
  unfold teardownGroup
  simp only [modifyGroup_entry]
  rw [entry_discardSet, teardownDiscardNotice_eq]
  simp [State.entry]

/-- A teardown changes the entries, the groups and the port queues, and nothing else. -/
theorem teardownGroup_eq (s : State) (g : GroupId) :
    teardownGroup s g =
      { s with
        entries := (teardownGroup s g).entries
        groups := (teardownGroup s g).groups
        ports := (teardownGroup s g).ports } := by
  unfold teardownGroup
  simp only
  rw [discardSet_eq, teardownDiscardNotice_eq, notifyEach_eq, notifyOptional_eq]
  rfl

@[simp] theorem isOnline_teardownGroup (s : State) (g : GroupId) (q : Port) :
    (teardownGroup s g).isOnline q = s.isOnline q := by
  have h : (teardownGroup s g).isOnline q =
      (teardownDiscardNotice g (s.group g)
        ((s.notifyOptional (s.group g).lessee (.leaseLost g .stop false)).notifyEach (s.group g).waitQueue
          (fun _ => .leaseLost g .stop true))).isOnline q := rfl
  rw [h, isOnline_teardownDiscardNotice, isOnline_notifyEach, isOnline_notifyOptional]

theorem mem_allGroups (g : GroupId) : g ∈ allGroups := by
  revert g; decide

theorem nodup_allGroups : allGroups.Nodup := by decide

/-- A fold of per-group changes over some groups: each group of the list is changed once, the others not. -/
theorem group_foldl {f : State → GroupId → State} {change : Group → Group}
    (hf : ∀ s g h, (f s g).group h = if g = h then change (s.group g) else s.group h)
    (gs : List GroupId) (hnd : gs.Nodup) (s : State) (h : GroupId) :
    (gs.foldl f s).group h = if h ∈ gs then change (s.group h) else s.group h := by
  induction gs generalizing s with
  | nil => simp
  | cons g rest ih =>
    rw [List.nodup_cons] at hnd
    rw [List.foldl_cons, ih hnd.2, hf]
    by_cases hg : g = h
    · subst hg; simp [hnd.1]
    · simp [hg, Ne.symm hg]

/-- Every group after the teardown (R36). -/
theorem group_teardownAll (s : State) (h : GroupId) : (teardownAll s).group h = tornDown (s.group h) := by
  rw [teardownAll, group_foldl group_teardownGroup allGroups nodup_allGroups, if_pos (mem_allGroups h)]

theorem foldl_teardownGroup_eq (gs : List GroupId) (s : State) :
    gs.foldl teardownGroup s =
      { s with
        entries := (gs.foldl teardownGroup s).entries
        groups := (gs.foldl teardownGroup s).groups
        ports := (gs.foldl teardownGroup s).ports } := by
  induction gs generalizing s with
  | nil => rfl
  | cons g rest ih => rw [List.foldl_cons, ih, teardownGroup_eq]

/-- The teardown changes the entries, the groups and the port queues only (R153). -/
theorem teardownAll_eq (s : State) :
    teardownAll s =
      { s with
        entries := (teardownAll s).entries, groups := (teardownAll s).groups, ports := (teardownAll s).ports } :=
  foldl_teardownGroup_eq _ _

/-- No entry keeps a staged value through the teardown (R153), and nothing else of an entry changes. -/
theorem entry_teardownAll (s : State) (i : Byte) : (teardownAll s).entry i = clearStaged (s.entry i) := by
  have hfold : ∀ (gs : List GroupId) (t : State),
      (gs.foldl teardownGroup t).entry i =
        (match t.entry i with
          | some e => if e.group ∈ gs then clearStaged (some e) else some e
          | none => none) := by
    intro gs
    induction gs with
    | nil => intro t; cases h : t.entry i <;> simp [h]
    | cons g rest ih =>
      intro t
      rw [List.foldl_cons, ih, entry_teardownGroup]
      cases he : t.entry i with
      | none => simp [discardEntry_none]
      | some e =>
        cases e with
        | value v =>
          rw [discardEntry_value]
          by_cases hg : v.group = g
          · simp [hg, Entry.group, clearStaged]
          · simp [hg, Entry.group, clearStaged]
        | fan f => rw [discardEntry_fan]; simp only [clearStaged, ite_self]
  rw [teardownAll, hfold]
  cases s.entry i with
  | none => rfl
  | some e => simp [mem_allGroups]

@[simp] theorem isOnline_teardownAll (s : State) (q : Port) : (teardownAll s).isOnline q = s.isOnline q := by
  have hfold : ∀ (gs : List GroupId) (t : State), (gs.foldl teardownGroup t).isOnline q = t.isOnline q := by
    intro gs
    induction gs with
    | nil => intro t; rfl
    | cons g rest ih => intro t; rw [List.foldl_cons, ih, isOnline_teardownGroup]
  exact hfold _ _

/-- A change of mode changes the mode and the port queues only (R142). -/
theorem changeMode_eq (new : Mode) (s : State) :
    changeMode new s = { s with mode := new, ports := (changeMode new s).ports } := by
  unfold changeMode
  rw [notifyMode_eq]

@[simp] theorem changeMode_group (new : Mode) (s : State) (g : GroupId) : (changeMode new s).group g = s.group g := by
  rw [changeMode_eq]; rfl

@[simp] theorem changeMode_entry (new : Mode) (s : State) (i : Byte) : (changeMode new s).entry i = s.entry i := by
  rw [changeMode_eq]; rfl

@[simp] theorem isOnline_changeMode (new : Mode) (s : State) (q : Port) : (changeMode new s).isOnline q = s.isOnline q := by
  unfold changeMode
  rw [isOnline_notifyMode]
  rfl

@[simp] theorem isOnline_voidWork (s : State) (q : Port) : s.voidWork.isOnline q = s.isOnline q := rfl

/-- A boundary in flight acts at no evaluation and no step once a STOP or an entry to CONFIG has come (R29, R80, R150). -/
theorem voidWork_acts_not {s t : State} {w : BoundaryWork} (h : w ∈ s.voidWork.boundaries) : t.actsAt w = false := by
  obtain ⟨v, -, rfl⟩ := List.mem_map.mp h
  exact Bool.and_false _

/-- What makes an evaluation or a step act (R29, R80). -/
theorem actsAt_eq_true {s : State} {w : BoundaryWork} : s.actsAt w = true ↔ s.mode = .running ∧ w.void = false := by
  simp [State.actsAt]

/-- Reports made before frame timing has heard of the entry to CONFIG are those that mode control ignores (R153). -/
theorem stopUnheard_eq_true {s : State} : s.stopUnheard = true ↔ .enterConfig ∈ s.toTiming := by
  simp [State.stopUnheard]

@[simp] theorem isOnline_tellTiming (m : ModeMessage) (s : State) (q : Port) :
    (tellTiming m s).isOnline q = s.isOnline q := rfl

@[simp] theorem isOnline_tellMode (r : TimingReport) (s : State) (q : Port) : (tellMode r s).isOnline q = s.isOnline q := rfl

theorem tellTiming_group (m : ModeMessage) (s : State) (g : GroupId) : (tellTiming m s).group g = s.group g := rfl

theorem tellTiming_entry (m : ModeMessage) (s : State) (i : Byte) : (tellTiming m s).entry i = s.entry i := rfl

/-- Every group after an entry to CONFIG (R36, R153). -/
theorem group_enterConfig (s : State) (h : GroupId) : (enterConfig s).group h = tornDown (s.group h) := by
  unfold enterConfig
  rw [tellTiming_group, group_teardownAll, changeMode_group, voidWork_group]

/-- Every entry after an entry to CONFIG (R153). -/
theorem entry_enterConfig (s : State) (i : Byte) : (enterConfig s).entry i = clearStaged (s.entry i) := by
  unfold enterConfig
  rw [tellTiming_entry, entry_teardownAll, changeMode_entry, voidWork_entry]

/-- An entry to CONFIG sets the mode, voids what boundaries in flight owe, tells frame timing, and otherwise changes the
entries, the groups and the port queues only (R153). -/
theorem enterConfig_eq (s : State) :
    enterConfig s =
      { s with
        mode := .config
        entries := (enterConfig s).entries
        groups := (enterConfig s).groups
        ports := (enterConfig s).ports
        boundaries := s.boundaries.map (fun w => { w with void := true })
        toTiming := s.toTiming ++ [.enterConfig] } := by
  unfold enterConfig tellTiming
  rw [teardownAll_eq, changeMode_eq, State.voidWork]

@[simp] theorem isOnline_enterConfig (s : State) (q : Port) : (enterConfig s).isOnline q = s.isOnline q := by
  unfold enterConfig
  rw [isOnline_tellTiming, isOnline_teardownAll, isOnline_changeMode, isOnline_voidWork]

/-! ### Commits (R22, R92 to R94) -/

theorem notifyCommit_eq (g : GroupId) (r : Group) (s : State) :
    notifyCommit g r s = { s with ports := (notifyCommit g r s).ports } :=
  notifyEach_eq _ _ _

theorem group_commitGroup (frame : Half) (g h : GroupId) (s : State) :
    (commitGroup frame g s).group h = if g = h then committedRecord frame (s.group g) else s.group h := by
  simp only [commitGroup]
  rw [notifyCommit_eq]
  exact group_setGroup _ _ _ _

theorem entry_commitGroup (frame : Half) (g : GroupId) (s : State) (i : Byte) :
    (commitGroup frame g s).entry i = commitEntry g (nextEpoch (s.group g).epoch) (s.entry i) := by
  simp only [commitGroup]
  rw [notifyCommit_eq]
  exact entry_mapEntries s _ i

/-- A commit changes the entries, the groups, the port queues, the committed-at-last-boundary set and the record of what
committed at the boundary, and nothing else. -/
theorem commitGroup_eq (frame : Half) (g : GroupId) (s : State) :
    commitGroup frame g s =
      { s with
        entries := (commitGroup frame g s).entries
        groups := (commitGroup frame g s).groups
        ports := (commitGroup frame g s).ports
        committedLast := addTo s.committedLast g
        boundaries :=
          modifyThrough BoundaryWork.unclosed (fun w => { w with committed := addTo w.committed g }) s.boundaries } := by
  simp only [commitGroup, recordCommit]
  rw [notifyCommit_eq]
  rfl

@[simp] theorem isOnline_commitGroup (frame : Half) (g : GroupId) (s : State) (q : Port) :
    (commitGroup frame g s).isOnline q = s.isOnline q :=
  (isOnline_notifyEach _ _ _ q).trans rfl

/-- What a commit makes of one record (R22): a VALUE entry of the group takes its staged words and the new epoch, or, when
the new epoch is 1 and it held none, entry epoch 1 unless its entry epoch is 0. -/
theorem commitEntry_value (g : GroupId) (epoch : Half) (v : ValueEntry) :
    commitEntry g epoch (some (.value v)) =
      some (.value
        (if v.group = g then
          match v.staged with
          | some words => { v with active := words, staged := none, epoch := epoch }
          | none => if epoch = 1#16 ∧ v.epoch ≠ 0#16 then { v with epoch := 1#16 } else v
        else v)) := by
  by_cases hg : v.group = g
  · cases hv : v.staged <;> simp [commitEntry, hg, hv]
  · simp [commitEntry, hg]

theorem commitEntry_fan (g : GroupId) (epoch : Half) (f : FanEntry) :
    commitEntry g epoch (some (.fan f)) = some (.fan f) := rfl

theorem commitEntry_none (g : GroupId) (epoch : Half) : commitEntry g epoch none = none := rfl

/-! ### Deferrals (R84, R85) -/

/-- A deferral raises the count; when it comes to the stale limit for the first time, stale reported is set and DEFERRED
is queued. -/
theorem group_deferGroup (g h : GroupId) (s : State) :
    (deferGroup g s).group h =
      if g = h then
        { s.group g with
          deferrals := raiseByte (s.group g).deferrals
          staleReported :=
            (s.group g).staleReported || raiseByte (s.group g).deferrals == (s.group g).staleLimit }
      else s.group h := by
  unfold deferGroup
  simp only
  split
  · next hc =>
    rw [notifyEach_group, group_setGroup]
    split
    · simp [hc.1]
    · rfl
  · next hc =>
    rw [group_setGroup]
    split
    · cases hr : (s.group g).staleReported with
      | true => simp
      | false =>
        have : ¬ raiseByte (s.group g).deferrals = (s.group g).staleLimit := fun h => hc ⟨h, hr⟩
        simp [this]
    · rfl

theorem deferGroup_eq (g : GroupId) (s : State) :
    deferGroup g s = { s with groups := (deferGroup g s).groups, ports := (deferGroup g s).ports } := by
  unfold deferGroup
  simp only
  split
  · rw [notifyEach_eq]; rfl
  · rfl

@[simp] theorem isOnline_deferGroup (g : GroupId) (s : State) (q : Port) : (deferGroup g s).isOnline q = s.isOnline q := by
  unfold deferGroup
  simp only
  split
  · rw [isOnline_notifyEach]; rfl
  · rfl

theorem group_lowerCountdown (g h : GroupId) (s : State) :
    (lowerCountdown g s).group h =
      if g = h then
        (if (s.group g).state = .sealed then { s.group g with countdown := lowerByte (s.group g).countdown } else s.group g)
      else s.group h :=
  group_modifyGroup _ _ _ _

/-! ### Boundaries (R125) -/

/-- A boundary produced: the time, the frame number and TRACKING in frame timing, the boundary on its way to mode control,
and for a substitute the FRAME notices; nothing else changes (R125, R131). -/
theorem produceBoundary_eq (time : Nat) (frame : Half) (substitute : Option Byte) (s : State) :
    produceBoundary time frame substitute s =
      { s with
        timing := { s.timing with state := .tracking, lastBoundary := some time, frameNumber := frame }
        now := max s.now time
        toMode := s.toMode ++ [.boundary frame]
        ports := (produceBoundary time frame substitute s).ports } := by
  unfold produceBoundary tellMode notifySubstitute
  cases substitute with
  | none => rfl
  | some count => dsimp only; rw [notifyEach_eq]; rfl

@[simp] theorem isOnline_produceBoundary (time : Nat) (frame : Half) (substitute : Option Byte) (s : State) (q : Port) :
    (produceBoundary time frame substitute s).isOnline q = s.isOnline q := by
  unfold produceBoundary
  rw [isOnline_tellMode]
  cases substitute with
  | none => rfl
  | some count => exact (isOnline_notifyEach _ _ _ q).trans rfl

theorem length_modifyFirst {α : Type} (test : α → Bool) (f : α → α) (l : List α) :
    (modifyFirst test f l).length = l.length := by
  induction l with
  | nil => rfl
  | cons x rest ih => unfold modifyFirst; split <;> simp [ih]

theorem length_modifyThrough {α : Type} (test : α → Bool) (f : α → α) (l : List α) :
    (modifyThrough test f l).length = l.length := by
  induction l with
  | nil => rfl
  | cons x rest ih => unfold modifyThrough; split <;> simp [ih]

/-- What modifyThrough makes of a list split at its first item that meets the test. -/
theorem modifyThrough_append {α : Type} (test : α → Bool) (f : α → α) (before after : List α) (x : α)
    (fails : ∀ y ∈ before, test y = false) (meets : test x = true) :
    modifyThrough test f (before ++ x :: after) = before.map f ++ f x :: after := by
  induction before with
  | nil => simp [modifyThrough, meets]
  | cons y rest ih =>
    rw [List.forall_mem_cons] at fails
    simp [modifyThrough, fails.1, ih fails.2]

/-! ### Sets -/

theorem inSet_addTo {n : Nat} (set : BitVec n) (i j : Fin n) :
    inSet (addTo set i) j = (inSet set j || decide (i = j)) := by
  simp [inSet, addTo, Fin.ext_iff, eq_comm]

theorem inSet_dropFrom {n : Nat} (set : BitVec n) (i j : Fin n) :
    inSet (dropFrom set i) j = (inSet set j && !decide (i = j)) := by
  simp [inSet, dropFrom, Fin.ext_iff, eq_comm]

theorem mem_members (set : GroupSet) (g : GroupId) : g ∈ members set ↔ inSet set g = true := by
  simp [members, mem_allGroups]

theorem nodup_members (set : GroupSet) : (members set).Nodup := nodup_allGroups.filter _

/-! ### FANs (R14) -/

theorem collectTargets_isSome (s : State) (g : GroupId) (targets : List Byte) :
    (collectTargets s g targets).isSome = true
      ↔ ∀ i ∈ targets, ∃ v, s.entry i = some (.value v) ∧ v.width = 1 ∧ v.group = g := by
  induction targets with
  | nil => simp [collectTargets]
  | cons i rest ih =>
    rw [List.forall_mem_cons, ← ih, collectTargets]
    split
    · rename_i v h
      by_cases shaped : v.width = 1 ∧ v.group = g <;> simp [h, shaped]
    · rename_i other
      exact ⟨by simp, fun ⟨⟨v, h, _⟩, _⟩ => absurd h (other v)⟩

/-- The soundness test of a FAN entry is the law of R14. -/
theorem soundEntry_fan (s : State) (f : FanEntry) : soundEntry s (some (.fan f)) = true ↔ FanSound s f :=
  collectTargets_isSome s f.group f.targets

/-! ### Device reset (R156) -/

theorem resetPort_resetPort (u : PortUnit) : resetPort (resetPort u) = resetPort u := by
  unfold resetPort
  by_cases h : u.transaction = .idle <;> simp [h]

@[simp] theorem portUnit_deviceReset (s : State) (p : Port) : (deviceReset s).portUnit p = resetPort (s.portUnit p) := by
  simp [deviceReset, State.portUnit]

theorem deviceReset_deviceReset (s : State) : deviceReset (deviceReset s) = deviceReset s := by
  have h : PerPort.ofFun (fun p => resetPort ((deviceReset s).portUnit p)) = PerPort.ofFun (fun p => resetPort (s.portUnit p)) := by
    apply PerPort.ext_get
    intro p
    simp [resetPort_resetPort]
  unfold deviceReset at h ⊢
  simp only [State.mk.injEq, true_and, and_true]
  exact h

@[simp] theorem group_deviceReset (s : State) (g : GroupId) : (deviceReset s).group g = Group.reset := by
  simp [deviceReset, State.group, State.reset]

@[simp] theorem entry_deviceReset (s : State) (i : Byte) : (deviceReset s).entry i = none := by
  simp [deviceReset, State.entry, State.reset]

end Sys2Proof.Machine
end

