-- ==== Sys2Proof/Laws/PerInstr.lean ====
section
/-! SUPPORT. Lemmas for every constructor of Instr. ArgumentLength: the arguments of a well-formed command of a port have a
length that check 7 of R161 accepts, and one that check 2 lets pass. -/

namespace Sys2Proof.Laws

/-- A word is four bytes (R176). -/
theorem length_wordsBytes (words : List Word) : (wordsBytes words).length = 4 * words.length := by
  induction words with
  | nil => rfl
  | cons w rest ih => simp [wordsBytes, wordBytes, ih]; omega

/-- The last column of R178 lists the argument length of every well-formed command of a port. -/
def ArgumentLength.Statement (i : Instr) : Prop :=
  i.wf = true → ∀ p c tag args, i.parts = some (p, c, tag, args) → c.accepts args.length = true ∧ args.length ≤ 64

theorem ArgumentLength.nop (p : Port) (tag : Byte) : ArgumentLength.Statement (.nop p tag) := by
  rintro - _ _ _ _ ⟨⟩
  exact ⟨rfl, by simp⟩

theorem ArgumentLength.status (p : Port) (tag : Byte) : ArgumentLength.Statement (.status p tag) := by
  rintro - _ _ _ _ ⟨⟩
  exact ⟨rfl, by simp⟩

theorem ArgumentLength.join (p : Port) (tag attention : Byte) : ArgumentLength.Statement (.join p tag attention) := by
  rintro - _ _ _ _ ⟨⟩
  exact ⟨rfl, by simp⟩

theorem ArgumentLength.leave (p : Port) (tag : Byte) : ArgumentLength.Statement (.leave p tag) := by
  rintro - _ _ _ _ ⟨⟩
  exact ⟨rfl, by simp⟩

theorem ArgumentLength.fetch (p : Port) (tag n : Byte) : ArgumentLength.Statement (.fetch p tag n) := by
  rintro - _ _ _ _ ⟨⟩
  exact ⟨rfl, by simp⟩

theorem ArgumentLength.claimConfig (p : Port) (tag : Byte) : ArgumentLength.Statement (.claimConfig p tag) := by
  rintro - _ _ _ _ ⟨⟩
  exact ⟨rfl, by simp⟩

theorem ArgumentLength.releaseConfig (p : Port) (tag : Byte) : ArgumentLength.Statement (.releaseConfig p tag) := by
  rintro - _ _ _ _ ⟨⟩
  exact ⟨rfl, by simp⟩

theorem ArgumentLength.start (p : Port) (tag : Byte) : ArgumentLength.Statement (.start p tag) := by
  rintro - _ _ _ _ ⟨⟩
  exact ⟨rfl, by simp⟩

theorem ArgumentLength.stop (p : Port) (tag : Byte) : ArgumentLength.Statement (.stop p tag) := by
  rintro - _ _ _ _ ⟨⟩
  exact ⟨rfl, by simp⟩

theorem ArgumentLength.resume (p : Port) (tag : Byte) : ArgumentLength.Statement (.resume p tag) := by
  rintro - _ _ _ _ ⟨⟩
  exact ⟨rfl, by simp⟩

theorem ArgumentLength.resetDevice (p : Port) (tag : Byte) : ArgumentLength.Statement (.resetDevice p tag) := by
  rintro - _ _ _ _ ⟨⟩
  exact ⟨rfl, by simp⟩

theorem ArgumentLength.defineEntry (p : Port) (tag index group width writers limits : Byte) (words : List Word) : ArgumentLength.Statement (.defineEntry p tag index group width writers limits words) := by
  rintro w _ _ _ _ ⟨⟩
  simp only [Instr.wf, decide_eq_true_eq] at w
  simp [Command.accepts, length_wordsBytes]
  omega

theorem ArgumentLength.defineFan (p : Port) (tag index group writers : Byte) (targets : List Byte) : ArgumentLength.Statement (.defineFan p tag index group writers targets) := by
  rintro w _ _ _ _ ⟨⟩
  simp only [Instr.wf, decide_eq_true_eq] at w
  simp [Command.accepts]
  omega

theorem ArgumentLength.deleteEntry (p : Port) (tag index : Byte) : ArgumentLength.Statement (.deleteEntry p tag index) := by
  rintro - _ _ _ _ ⟨⟩
  exact ⟨rfl, by simp⟩

theorem ArgumentLength.defineGroup (p : Port) (tag group staleLimit ackDeadline patienceLimit : Byte) : ArgumentLength.Statement (.defineGroup p tag group staleLimit ackDeadline patienceLimit) := by
  rintro - _ _ _ _ ⟨⟩
  exact ⟨rfl, by simp⟩

theorem ArgumentLength.defineBundle (p : Port) (tag bundle : Byte) (members : List Byte) : ArgumentLength.Statement (.defineBundle p tag bundle members) := by
  rintro w _ _ _ _ ⟨⟩
  simp only [Instr.wf, decide_eq_true_eq] at w
  simp [Command.accepts]
  omega

theorem ArgumentLength.setFrame (p : Port) (tag source : Byte) (period : Word) : ArgumentLength.Statement (.setFrame p tag source period) := by
  rintro - _ _ _ _ ⟨⟩
  exact ⟨rfl, by simp [wordBytes]⟩

theorem ArgumentLength.read (p : Port) (tag index : Byte) : ArgumentLength.Statement (.read p tag index) := by
  rintro - _ _ _ _ ⟨⟩
  exact ⟨rfl, by simp⟩

theorem ArgumentLength.readSet (p : Port) (tag : Byte) (indices : List Byte) : ArgumentLength.Statement (.readSet p tag indices) := by
  rintro w _ _ _ _ ⟨⟩
  simp only [Instr.wf, decide_eq_true_eq] at w
  simp [Command.accepts]
  omega

theorem ArgumentLength.groupStatus (p : Port) (tag group : Byte) : ArgumentLength.Statement (.groupStatus p tag group) := by
  rintro - _ _ _ _ ⟨⟩
  exact ⟨rfl, by simp⟩

theorem ArgumentLength.lease (p : Port) (tag group : Byte) : ArgumentLength.Statement (.lease p tag group) := by
  rintro - _ _ _ _ ⟨⟩
  exact ⟨rfl, by simp⟩

theorem ArgumentLength.release (p : Port) (tag group : Byte) : ArgumentLength.Statement (.release p tag group) := by
  rintro - _ _ _ _ ⟨⟩
  exact ⟨rfl, by simp⟩

theorem ArgumentLength.stage (p : Port) (tag index : Byte) (words : List Word) : ArgumentLength.Statement (.stage p tag index words) := by
  rintro w _ _ _ _ ⟨⟩
  simp only [Instr.wf, decide_eq_true_eq] at w
  simp [Command.accepts, length_wordsBytes]
  omega

theorem ArgumentLength.unstage (p : Port) (tag index : Byte) : ArgumentLength.Statement (.unstage p tag index) := by
  rintro - _ _ _ _ ⟨⟩
  exact ⟨rfl, by simp⟩

theorem ArgumentLength.seal (p : Port) (tag group delay marked : Byte) : ArgumentLength.Statement (.seal p tag group delay marked) := by
  rintro - _ _ _ _ ⟨⟩
  exact ⟨rfl, by simp⟩

theorem ArgumentLength.unseal (p : Port) (tag group : Byte) : ArgumentLength.Statement (.unseal p tag group) := by
  rintro - _ _ _ _ ⟨⟩
  exact ⟨rfl, by simp⟩

theorem ArgumentLength.readStaged (p : Port) (tag index : Byte) : ArgumentLength.Statement (.readStaged p tag index) := by
  rintro - _ _ _ _ ⟨⟩
  exact ⟨rfl, by simp⟩

theorem ArgumentLength.subscribe (p : Port) (tag group mode : Byte) : ArgumentLength.Statement (.subscribe p tag group mode) := by
  rintro - _ _ _ _ ⟨⟩
  exact ⟨rfl, by simp⟩

theorem ArgumentLength.ack (p : Port) (tag group : Byte) (epoch : Half) : ArgumentLength.Statement (.ack p tag group epoch) := by
  rintro - _ _ _ _ ⟨⟩
  exact ⟨rfl, by simp [halfBytes]⟩

theorem ArgumentLength.badframe (p : Port) (mosi : List Byte) : ArgumentLength.Statement (.badframe p mosi) := by
  rintro - _ _ _ _ ⟨⟩

theorem ArgumentLength.pureRead (p : Port) : ArgumentLength.Statement (.pureRead p) := by
  rintro - _ _ _ _ ⟨⟩

theorem ArgumentLength.fsyncEdge (time : Nat) : ArgumentLength.Statement (.fsyncEdge time) := by
  rintro - _ _ _ _ ⟨⟩

theorem ArgumentLength.internalTimer : ArgumentLength.Statement (.internalTimer) := by
  rintro - _ _ _ _ ⟨⟩

theorem ArgumentLength.windowExpiry : ArgumentLength.Statement (.windowExpiry) := by
  rintro - _ _ _ _ ⟨⟩

theorem ArgumentLength.frameLoss : ArgumentLength.Statement (.frameLoss) := by
  rintro - _ _ _ _ ⟨⟩

theorem ArgumentLength.boundaryTaken : ArgumentLength.Statement (.boundaryTaken) := by
  rintro - _ _ _ _ ⟨⟩

theorem ArgumentLength.enterFirst : ArgumentLength.Statement (.enterFirst) := by
  rintro - _ _ _ _ ⟨⟩

theorem ArgumentLength.enterStopped : ArgumentLength.Statement (.enterStopped) := by
  rintro - _ _ _ _ ⟨⟩

theorem ArgumentLength.opening : ArgumentLength.Statement (.opening) := by
  rintro - _ _ _ _ ⟨⟩

theorem ArgumentLength.groupEvaluation (g : GroupId) : ArgumentLength.Statement (.groupEvaluation g) := by
  rintro - _ _ _ _ ⟨⟩

theorem ArgumentLength.bundleEvaluation (b : BundleId) : ArgumentLength.Statement (.bundleEvaluation b) := by
  rintro - _ _ _ _ ⟨⟩

theorem ArgumentLength.closing : ArgumentLength.Statement (.closing) := by
  rintro - _ _ _ _ ⟨⟩

theorem ArgumentLength.commitPulseEnd : ArgumentLength.Statement (.commitPulseEnd) := by
  rintro - _ _ _ _ ⟨⟩

theorem ArgumentLength.patienceStep (g : GroupId) : ArgumentLength.Statement (.patienceStep g) := by
  rintro - _ _ _ _ ⟨⟩

theorem ArgumentLength.ackStep (g : GroupId) : ArgumentLength.Statement (.ackStep g) := by
  rintro - _ _ _ _ ⟨⟩

theorem ArgumentLength.noticeArrival (p : Port) (notice : Notice) : ArgumentLength.Statement (.noticeArrival p notice) := by
  rintro - _ _ _ _ ⟨⟩

theorem ArgumentLength.resetAssert : ArgumentLength.Statement (.resetAssert) := by
  rintro - _ _ _ _ ⟨⟩

theorem ArgumentLength.resetRelease : ArgumentLength.Statement (.resetRelease) := by
  rintro - _ _ _ _ ⟨⟩

theorem ArgumentLength.powerUp : ArgumentLength.Statement (.powerUp) := by
  rintro - _ _ _ _ ⟨⟩

theorem ArgumentLength.csFalls (p : Port) : ArgumentLength.Statement (.csFalls p) := by
  rintro - _ _ _ _ ⟨⟩

end Sys2Proof.Laws
end

