-- ==== Sys2Proof/Tests/Slice0.lean ====
section
/-! SUPPORT. Tests: ill-formed terms that WellFormed refuses, frames written out byte by byte, one step of each family against the
manual's worked examples or against bytes worked out by hand from its rules, and for every obligation with hypotheses a concrete
state and operands that meet them, clause by clause and at the ends of the ranges. -/

namespace Sys2Proof.Tests

-- One theorem after another: a thread for each of this many kernel evaluations asks for more memory than the check allows.
set_option Elab.async false

open Sys2Proof Sys2Proof.Machine

/-! ### WellFormed refuses -/

theorem test_wf_defineEntry_no_word : Instr.wf (.defineEntry .p0 1 1 0 1 0xFF 0 []) = false := by decide
theorem test_wf_defineEntry_seven_words : Instr.wf (.defineEntry .p0 1 1 0 4 0xFF 0 [1, 2, 3, 4, 5, 6, 7]) = false := by decide
theorem test_wf_defineFan_five_targets : Instr.wf (.defineFan .p0 1 1 0 0xFF [2, 3, 4, 5, 6]) = false := by decide
theorem test_wf_defineBundle_seventeen_members :
    Instr.wf (.defineBundle .p0 1 0 (List.replicate 17 3)) = false := by decide
theorem test_wf_readSet_no_index : Instr.wf (.readSet .p0 1 []) = false := by decide
theorem test_wf_readSet_nine_indices : Instr.wf (.readSet .p0 1 (List.replicate 9 3)) = false := by decide
theorem test_wf_stage_no_word : Instr.wf (.stage .p0 1 1 []) = false := by decide
theorem test_wf_stage_five_words : Instr.wf (.stage .p0 1 1 [1, 2, 3, 4, 5]) = false := by decide
theorem test_wf_badframe_only_fill : Instr.wf (.badframe .p0 [0, 0]) = false := by decide
theorem test_wf_notice_deferred_zero : Instr.wf (.noticeArrival .p0 (.deferred 3 0 .acks)) = false := by decide
theorem test_wf_notice_lapsed_five : Instr.wf (.noticeArrival .p0 (.lapsed 3 7 false 5)) = false := by decide
theorem test_wf_notice_substitute_four : Instr.wf (.noticeArrival .p0 (.frameSubstitute 4)) = false := by decide
theorem test_wf_notice_same_mode : Instr.wf (.noticeArrival .p0 (.modeChange .running .running)) = false := by decide

/-! ### Frames written out from R160, R176 and R178; the CRC bytes were worked out apart from this model from R177 -/

theorem test_frame_nop : decodeFrame .p0 true [0x01, 0x07, 0x00, 0xA6] = some (.nop .p0 7) := by decide +kernel
/-- Leading 00h is fill (R159), and an OFFLINE port may JOIN (R161). -/
theorem test_frame_join_after_fill :
    decodeFrame .p1 false [0x00, 0x00, 0x03, 0x21, 0x01, 0x01, 0x3A] = some (.join .p1 0x21 1) := by decide +kernel
/-- A byte after the complete frame is ignored (R160). -/
theorem test_frame_stop_with_trailing_byte :
    decodeFrame .p2 true [0x13, 0x02, 0x00, 0x66, 0x99] = some (.stop .p2 2) := by decide +kernel
theorem test_frame_defineEntry :
    decodeFrame .p3 true [0x20, 0x05, 0x09, 0x0A, 0x02, 0x01, 0xFF, 0x00, 0x00, 0x00, 0x00, 0x4B, 0x20] =
      some (.defineEntry .p3 5 10 2 1 0xFF 0 [75]) := by decide +kernel
/-- With a limits code, min and max stand before the initial word (R179). -/
theorem test_frame_defineEntry_limits :
    decodeFrame .p3 true
      [0x20, 0x06, 0x11, 0x0B, 0x03, 0x01, 0x05, 0x03, 0xFF, 0xFF, 0xFF, 0xFE, 0x00, 0x00, 0x00, 0x09, 0x00, 0x00, 0x00, 0x01, 0xCD] =
      some (.defineEntry .p3 6 11 3 1 5 3 [0xFFFFFFFE, 9, 1]) := by decide +kernel
theorem test_frame_defineBundle :
    decodeFrame .p0 true [0x24, 0x08, 0x04, 0x00, 0x02, 0x05, 0x07, 0x56] = some (.defineBundle .p0 8 0 [2, 5, 7]) := by
  decide +kernel
theorem test_frame_setFrame :
    decodeFrame .p0 true [0x25, 0x04, 0x05, 0x01, 0x00, 0x00, 0x27, 0x10, 0x6C] = some (.setFrame .p0 4 1 10000) := by
  decide +kernel
theorem test_frame_readSet : decodeFrame .p0 true [0x31, 0x01, 0x02, 0x0A, 0xFF, 0xC8] = some (.readSet .p0 1 [10, 255]) := by
  decide +kernel
theorem test_frame_release : decodeFrame .p1 true [0x41, 0x09, 0x01, 0x05, 0xAB] = some (.release .p1 9 5) := by decide +kernel
theorem test_frame_stage :
    decodeFrame .p1 true [0x42, 0x11, 0x09, 0x0A, 0x00, 0x00, 0x00, 0x01, 0xFF, 0xEE, 0xDD, 0xCC, 0x6E] =
      some (.stage .p1 0x11 10 [1, 0xFFEEDDCC]) := by decide +kernel
theorem test_frame_seal : decodeFrame .p1 true [0x44, 0x02, 0x03, 0x02, 0x00, 0x01, 0x94] = some (.seal .p1 2 2 0 1) := by
  decide +kernel
theorem test_frame_ack : decodeFrame .p1 true [0x51, 0x03, 0x03, 0x02, 0x01, 0x2C, 0x9F] = some (.ack .p1 3 2 300) := by
  decide +kernel
/-- A wrong CRC names no command (R161 check 4). -/
theorem test_frame_wrong_crc : decodeFrame .p1 true [0x51, 0x03, 0x03, 0x02, 0x01, 0x2C, 0x9E] = none := by decide +kernel
/-- The catalogued check value of CRC-8/AUTOSAR over the digits 1 to 9 is DFh, with a final inversion that R177 does not make. -/
theorem test_crc8_check_value : crc8 [0x31, 0x32, 0x33, 0x34, 0x35, 0x36, 0x37, 0x38, 0x39] = 0x20 := by decide +kernel
/-- The reset response: tag 00h, OK, no data and its CRC (R180). -/
theorem test_reset_response : responseBytes .reset = [0x00, 0x00, 0x00, 0x69] := by decide +kernel

/-! ### Small states -/

/-- The state after reset with every port ONLINE in its first session, attention enabled. -/
def joined : State :=
  { State.reset with
    ports := PerPort.fill { PortUnit.reset with session := .online, sessionNumber := 1, attention := true } }

/-- In CONFIG, P0 the claimant. -/
def claimant : State := { joined with claim := some .p0 }

def inMode (m : Mode) : State := { joined with mode := m }

/-- A VALUE entry of width 1. -/
def wordEntry (g : GroupId) (w : Word) (staged : Option (List Word)) (limits : Option Limits) : Entry :=
  .value { group := g, width := 1, active := [w], staged := staged, epoch := 3, writers := ⟨true, false, true, true⟩, limits := limits }

def unsignedLimits (policy : LimitPolicy) : Limits := ⟨.unsigned, 10, 1000, policy⟩

/-- RUNNING: G3 STAGING under P0 with P1 waiting, P2 owing an acknowledgment of epoch 4; E10 staged, E11 with CLAMP limits, E12 of
G5, E13 a FAN on E10 and E11; B0 holds G3 and G4; limit 3 and counter 1. -/
def held : State :=
  ((((inMode .running).setEntry 10 (some (wordEntry 3 7 (some [8]) none))).setEntry 11
    (some (wordEntry 3 20 none (some (unsignedLimits .clamp))))).setEntry 12 (some (wordEntry 5 20 none none))).setEntry 13
    (some (.fan ⟨3, PortSet.every, [10, 11]⟩))
  |>.setGroup 3
    { Group.reset with
      state := .staging, epoch := 4, lessee := some .p0, waitQueue := [.p1], patience := 1, patienceLimit := 3
      subscriptions := ⟨.none, .observe, .ackAll, .none⟩, outstanding := ⟨false, false, true, false⟩, ackAge := 5
      ackDeadline := 6, lastSealer := some .p3 }
  |>.setGroup 5 { Group.reset with epoch := 9, lessee := some .p0 }
  |>.setBundle 0 0x0018
  |> fun s => { s with freeWords := 509 }

/-- The same with G3 SEALED by P0, due, marked and owed nothing. -/
def sealedDueState (countdown deferrals staleLimit : Byte) (owing : PortSet) : State :=
  held.setGroup 3
    { held.group 3 with
      state := .sealed, sealer := some .p0, marked := true, countdown := countdown, deferrals := deferrals
      staleLimit := staleLimit, outstanding := owing }

/-- A boundary in RUNNING, opened, with evaluations, patience steps and ack steps owed. -/
def work (groups : GroupSet) (bundles : BundleSet) (patience acks : GroupSet) : BoundaryWork :=
  { kind := .run, frame := 77, void := false, opened := true, closed := false, groupEvals := groups, bundleEvals := bundles, committed := 0
    patienceSteps := patience, ackSteps := acks }

/-- The same with a STOP since it (R29, R80). -/
def stopped (w : BoundaryWork) : BoundaryWork := { w with void := true }

/-- A state after a command, itself if the command does not answer next. -/
def after (s : State) (c : Instr) : State :=
  match exec c s with
  | .next t => t
  | _ => s

/-- The status and the data of a port's response. -/
def reply (s : State) (p : Port) : Status × List Byte := ((s.portUnit p).response.status, (s.portUnit p).response.data)

/-- The notices of a port's queue, without their frame numbers. -/
def kinds (s : State) (p : Port) : List (Option Notice) :=
  (s.portUnit p).queue.map fun
    | .notice n _ => some n
    | .overflow _ _ => none

/-! ### Port units -/

theorem test_nop : reply (after joined (.nop .p0 9)) .p0 = (.ok, []) := by decide +kernel
/-- The 14 bytes of R183, from a state worked out by hand. -/
theorem test_status :
    reply (after { held with timing := { held.timing with frameNumber := 0x0102, flywheel := 2, earlySync := 3 }, committedLast := 0x8001 }
      (.status .p0 9)) .p0 = (.ok, [2, 0xFF, 1, 2, 2, 0, 3, 0, 0x80, 0x01, 1, 1, 1, 0]) := by decide +kernel
theorem test_join_wraps :
    reply (after { State.reset with ports := PerPort.fill { PortUnit.reset with sessionNumber := 255 } } (.join .p2 1 1)) .p2 =
      (.ok, [1, 1]) := by decide +kernel
/-- The waiting port is granted the lease and the STAGING set is discarded (R53, R77). -/
theorem test_leave :
    (after held (.leave .p0 1)).group 3 =
        { held.group 3 with state := .idle, lessee := some .p1, waitQueue := [], patience := 0 }
      ∧ kinds (after held (.leave .p0 1)) .p1 = [some (.leaseGranted 3 .leave)] := by decide +kernel
theorem test_fetch_two_of_three :
    reply (after (((joined.notify .p0 (.leaseGranted 7 .patience)).notify .p0 (.deferred 2 8 .acks)).notify .p0 (.frameSubstitute 1))
      (.fetch .p0 1 2)) .p0 =
        (.ok, [2, 1, 2, 7, 0, 0, 0, 0, 2, 0, 5, 2, 0, 0, 0, 0, 8, 5]) := by decide +kernel
theorem test_fetch_five : reply (after joined (.fetch .p0 1 5)) .p0 = (.argument, []) := by decide +kernel
/-- A frame with a bad CRC (R162): reason 03h, four bytes received. -/
theorem test_badframe_crc : reply (after joined (.badframe .p0 [0, 0x01, 0x07, 0x00, 0xA7])) .p0 = (.badFrame, [3, 4]) := by
  decide +kernel
theorem test_badframe_offline :
    reply (after State.reset (.badframe .p0 [0x41, 0x09, 0x01, 0x05, 0xAB])) .p0 = (.offline, []) := by decide +kernel
theorem test_pureRead : (after joined (.pureRead .p0)).portUnit .p0 = joined.portUnit .p0 := by decide +kernel
/-- The part shifts out the reset response, then 00h (R159). -/
theorem test_csFalls :
    [0, 1, 2, 3, 4].map (((after State.reset (.csFalls .p0)).portUnit .p0).misoByte ·) =
      [some 0, some 0, some 0, some 0x69, some 0] := by decide +kernel
/-- 32 held and FETCH of 1 first: 31 are left, and the arrival is dropped with a second OVERFLOW (R170; log entry 19). -/
theorem test_noticeArrival_after_fetch_of_one :
    let full := joined.setPort .p0
      { joined.portUnit .p0 with queue := List.replicate 31 (.notice (.frameSubstitute 1) 4) ++ [.overflow 2 4] }
    ((after (after full (.fetch .p0 1 1)) (.noticeArrival .p0 (.frameSubstitute 2))).portUnit .p0).queue =
      List.replicate 30 (.notice (.frameSubstitute 1) 4) ++ [.overflow 2 4, .overflow 1 0] := by decide +kernel
/-- ATTN# at the arrival at an empty queue, with attention enable yes and no (R174). -/
theorem test_noticeArrival_attn :
    ((after joined (.noticeArrival .p0 (.frameSubstitute 1))).portUnit .p0).attn = true
      ∧ ((after (joined.setPort .p0 { joined.portUnit .p0 with attention := false })
          (.noticeArrival .p0 (.frameSubstitute 1))).portUnit .p0).attn = false := by decide +kernel
theorem test_noticeArrival_offline :
    ((after State.reset (.noticeArrival .p0 (.frameSubstitute 1))).portUnit .p0).queue = [] := by decide +kernel

/-! ### Mode control -/

theorem test_claim_busy : reply (after claimant (.claimConfig .p1 1)) .p1 = (.busy, [0]) := by decide +kernel
theorem test_releaseConfig_not_claimant : reply (after claimant (.releaseConfig .p1 1)) .p1 = (.noClaim, [0]) := by decide +kernel
theorem test_start :
    (after claimant (.start .p0 1)).mode = .starting ∧ reply (after claimant (.start .p0 1)) .p0 = (.ok, [0, 0, 0, 0x4E, 0x20])
      ∧ kinds (after claimant (.start .p0 1)) .p3 = [some (.modeChange .starting .config)] := by decide +kernel
/-- A FAN with an undefined target stops START (R14). -/
theorem test_start_unsound :
    reply (after (claimant.setEntry 7 (some (.fan ⟨0, PortSet.every, [8]⟩))) (.start .p0 1)) .p0 = (.invalid, [7]) := by
  decide +kernel
theorem test_stop_running :
    (after held (.stop .p3 1)).mode = .stopping ∧ reply (after held (.stop .p3 1)) .p3 = (.ok, [3]) := by decide +kernel
/-- The teardown's notices at the lessee: MODE, LEASE_LOST, DISCARDED (R54, R73, R142). -/
theorem test_stop_fault :
    kinds (after { held with mode := .fault } (.stop .p3 1)) .p0 =
      [some (.modeChange .config .fault), some (.leaseLost 3 .stop false), some (.discarded 3 .stop false),
       some (.leaseLost 5 .stop false)] := by decide +kernel
theorem test_resume_again :
    reply (after (after (inMode .fault) (.resume .p0 1)) (.resume .p1 1)) .p1 = (.already, [0, 0, 0]) := by decide +kernel
theorem test_resetDevice :
    (after claimant (.resetDevice .p0 1)).isOnline .p3 = false
      ∧ ((after claimant (.resetDevice .p0 1)).portUnit .p0).response = ⟨0, .ok, []⟩ := by decide +kernel
theorem test_resetAssert_loses_transaction :
    ((after (after joined (.csFalls .p1)) .resetAssert).portUnit .p1).transaction = .lost
      ∧ (after held .resetAssert).freeWords = 512 := by decide +kernel
theorem test_resetRelease : (after (after held .resetAssert) .resetRelease).resetLow = false := by decide +kernel
theorem test_powerUp : (after held .powerUp).mode = .config := by decide +kernel
theorem test_boundaryTaken_starting :
    (after { inMode .starting with toMode := [.boundary 0] } .boundaryTaken).mode = .running := by decide +kernel
theorem test_boundaryTaken_config_ignored :
    (after { joined with toMode := [.boundary 5] } .boundaryTaken).boundaries = []
      ∧ (after { joined with toMode := [.boundary 5] } .boundaryTaken).toMode = [] := by decide +kernel
/-- A boundary that frame timing produced before it took the message of the entry to CONFIG is no start boundary (R125, R153). -/
theorem test_boundaryTaken_before_message_ignored :
    (after { inMode .starting with toMode := [.boundary 5], toTiming := [.enterConfig, .start 9] } .boundaryTaken).mode = .starting
      := by decide +kernel
theorem test_frameLoss_running :
    (after { held with toMode := [.frameLoss] } .frameLoss).mode = .fault := by decide +kernel

/-! ### The parameter table: the example of 1.12 -/

/-- Step 2 of the example: E10, group 2, width 1, writers P0, UNSIGNED CLAMP 0 to 1000, initial 400; free count 511. -/
def table1 : State := after claimant (.defineEntry .p0 3 10 2 1 1 2 [0, 1000, 400])
theorem test_defineEntry_example : reply table1 .p0 = (.ok, [0x01, 0xFF]) := by decide +kernel
/-- An initial value outside the limits is RANGE, with the free count. -/
theorem test_defineEntry_range :
    reply (after table1 (.defineEntry .p0 3 12 2 1 2 3 [0xFFFFFFCE, 50, 70])) .p0 = (.range, [0x01, 0xFF]) := by decide +kernel
theorem test_defineFan_then_read :
    reply (after (after table1 (.defineFan .p0 3 20 2 0xFF [10])) (.read .p0 4 20)) .p0 =
      (.ok, [1, 0, 0, 0x01, 0x90, 0, 0, 0, 0]) := by decide +kernel
theorem test_deleteEntry_undefined : reply (after table1 (.deleteEntry .p0 3 9)) .p0 = (.noEntry, [9, 0x01, 0xFF]) := by
  decide +kernel
theorem test_deleteEntry_returns_words : reply (after table1 (.deleteEntry .p0 3 10)) .p0 = (.ok, [0x02, 0x00]) := by decide +kernel
/-- The width map of the manual's READ_SET of widths 1, 4 and 1 is 30h (R182). -/
theorem test_widthMap : widthMap [1, 4, 1] = [0x30] := by decide +kernel
theorem test_readSet_stops_at_first :
    reply (after table1 (.readSet .p0 3 [10, 99, 98])) .p0 = (.noEntry, [99]) := by decide +kernel

/-! ### Groups, subscriptions, acknowledgments -/

theorem test_defineGroup :
    reply (after claimant (.defineGroup .p0 3 15 1 255 7)) .p0 = (.ok, [15, 1, 255, 7]) := by decide +kernel
/-- The 34 bytes of R183, written out by hand from the state. -/
theorem test_groupStatus :
    reply (after held (.groupStatus .p2 1 3)) .p2 =
      (.ok, [3, 1, 0, 4, 0, 0, 0, 3, 0, 1, 1, 0xFF, 0xFF, 1, 0xFF, 0, 0, 0, 0, 0, 1, 2, 0, 2, 4, 5, 8, 6, 3, 0, 0, 3, 0, 1]) := by
  decide +kernel
theorem test_subscribe_released :
    reply (after held (.subscribe .p2 1 3 1)) .p2 = (.ok, [3, 2, 1, 1, 0]) := by decide +kernel
theorem test_subscribe_lapsed_refused : reply (after held (.subscribe .p2 1 3 4)) .p2 = (.argument, []) := by decide +kernel
theorem test_ack : reply (after held (.ack .p2 1 3 4)) .p2 = (.ok, [3, 0, 4, 2, 0]) := by decide +kernel
theorem test_ack_stale : reply (after held (.ack .p2 1 3 3)) .p2 = (.stale, [3, 0, 4, 2, 4]) := by decide +kernel
/-- The lapse of R114 at age 6: the holdout and the last sealer are told. -/
theorem test_ackStep_lapse :
    kinds (after { held with boundaries := [work 0 0 0 8] } (.ackStep 3)) .p2 = [some (.lapsed 3 4 false 1)]
      ∧ kinds (after { held with boundaries := [work 0 0 0 8] } (.ackStep 3)) .p3 = [some (.lapsed 3 4 true 1)] := by decide +kernel

/-- A step of an earlier boundary, taken after the commit at a later one, does not age the set that the commit formed (R29, R93). -/
theorem test_ackStep_after_later_commit :
    let s : State :=
      { ((sealedDueState 1 0 8 PortSet.none).setBundle 0 0).modifyGroup 3 (fun r => { r with ackDeadline := 1 }) with
        boundaries := [{ work 0 0 0 8 with closed := true }, work 8 0 0 8] }
    ((after (after s (.groupEvaluation 3)) (.ackStep 3)).group 3).ackAge = 0
      ∧ ((after (after s (.groupEvaluation 3)) (.ackStep 3)).group 3).outstanding = ⟨false, false, true, false⟩ := by decide +kernel
/-- A STOP between the boundary and the step: in the next run the step does nothing (R29). -/
theorem test_ackStep_after_stop :
    ((after { after { held with boundaries := [work 0 0 8 8] } (.stop .p0 1) with mode := .running } (.ackStep 3)).group 3).ackAge = 5
      := by decide +kernel

/-! ### Leases: the example of 3.9 -/

theorem test_lease_queued : reply (after held (.lease .p3 1 3)) .p3 = (.queued, [3, 0, 2]) := by decide +kernel
theorem test_release_discards : reply (after held (.release .p0 1 3)) .p0 = (.ok, [3, 1, 0xFF, 1]) := by decide +kernel
/-- The revocation of R50 with limit 3: LEASE_LOST before DISCARDED at the lessee, LEASE_GRANTED at the head. -/
theorem test_patienceStep_revokes :
    kinds (after { held.setGroup 3 { held.group 3 with patience := 2 } with boundaries := [work 0 0 8 0] } (.patienceStep 3)) .p0 =
        [some (.leaseLost 3 .patience false), some (.discarded 3 .patience false)]
      ∧ kinds (after { held.setGroup 3 { held.group 3 with patience := 2 } with boundaries := [work 0 0 8 0] } (.patienceStep 3)) .p1 =
        [some (.leaseGranted 3 .patience)] := by decide +kernel

/-- A step of an earlier boundary, taken after the commit at a later one of the set that was SEALED when it came, does not
advance the counter (R29, R49). -/
theorem test_patienceStep_after_later_commit :
    let s : State :=
      { (sealedDueState 1 0 8 PortSet.none).setBundle 0 0 with
        boundaries := [{ work 0 0 8 0 with closed := true }, work 8 0 8 0] }
    ((after (after s (.groupEvaluation 3)) (.patienceStep 3)).group 3).patience = 1 := by decide +kernel

/-! ### Staging and sealing -/

theorem test_stage_clamped :
    reply (after held (.stage .p0 1 11 [1500])) .p0 = (.clamped, [11, 1, 0, 0, 0x03, 0xE8, 0, 2]) := by decide +kernel
theorem test_stage_denied : reply (after (held.setGroup 3 { held.group 3 with lessee := some .p1 }) (.stage .p1 1 10 [1])) .p1 =
    (.denied, []) := by decide +kernel
theorem test_stage_fan :
    reply (after held (.stage .p0 1 13 [5])) .p0 =
      (.clamped, [2, 10, 0, 0, 0, 5, 11, 0, 0, 0, 10, 0, 2]) := by decide +kernel
theorem test_unstage : reply (after held (.unstage .p0 1 10)) .p0 = (.ok, [10, 1, 0, 0]) := by decide +kernel
theorem test_seal : reply (after held (.seal .p0 1 3 15 1)) .p0 = (.ok, [3, 0, 4, 16, 0, 1]) := by decide +kernel
theorem test_unseal :
    reply (after (sealedDueState 1 0 8 PortSet.none) (.unseal .p0 1 3)) .p0 = (.ok, [3, 0, 1, 0]) := by decide +kernel
theorem test_unseal_late : reply (after held (.unseal .p0 1 3)) .p0 = (.late, [3, 1, 0, 4]) := by decide +kernel
theorem test_readStaged_fan :
    reply (after held (.readStaged .p0 1 13)) .p0 = (.ok, [2, 10, 0, 0, 0, 8, 1, 11, 0, 0, 0, 20, 0]) := by decide +kernel

/-! ### The commit unit -/

theorem test_defineBundle_elsewhere :
    reply (after (claimant.setBundle 1 0x0020) (.defineBundle .p0 1 0 [2, 5])) .p0 = (.argument, [5, 1]) := by decide +kernel
theorem test_opening_owes :
    (after { held with committedLast := 9, boundaries := [{ work 0 0 0 0 with opened := false }] } .opening).boundaries =
      [work 0xFFE7 1 0 0] := by decide +kernel
/-- A set that is due and owed nothing commits: the words are active with the new epoch (R22, R92). -/
theorem test_bundleEvaluation_commits :
    (after { sealedDueState 1 0 8 PortSet.none with boundaries := [work 0 1 0 0] } (.bundleEvaluation 0)).entry 10 =
      some (.value { group := 3, width := 1, active := [8], staged := none, epoch := 5, writers := ⟨true, false, true, true⟩, limits := none })
      := by decide +kernel
/-- Deferred with PARTNER: G4 is STAGING and the count comes to its limit (R85, R90). -/
theorem test_bundleEvaluation_defers :
    kinds (after { (sealedDueState 0 7 8 PortSet.none).setGroup 4 { Group.reset with state := .staging, lessee := some .p1 } with
        boundaries := [work 0 1 0 0] } (.bundleEvaluation 0)) .p0 = [some (.deferred 3 8 .partner)] := by decide +kernel
theorem test_groupEvaluation_commits :
    ((after { (sealedDueState 1 0 8 PortSet.none).setBundle 0 0 with boundaries := [work 8 0 0 0] } (.groupEvaluation 3)).group 3).outstanding =
      ⟨false, false, true, false⟩ := by decide +kernel
/-- An evaluation that a STOP left undone stays undone in the next run (R80, R150). -/
theorem test_groupEvaluation_after_stop :
    ((after { after { (sealedDueState 1 0 8 PortSet.none).setBundle 0 0 with boundaries := [work 8 0 0 0] } (.stop .p0 1) with
        mode := .running } (.groupEvaluation 3)).group 3).state = .sealed := by decide +kernel
theorem test_closing_pulses :
    (after { held with committedLast := 8, now := 100, boundaries := [work 0 0 0 0] } .closing).commitPulse = some 125 := by
  decide +kernel
theorem test_commitPulseEnd :
    (after { held with commitPulse := some 125, now := 110 } .commitPulseEnd).commitLine = false
      ∧ (after { held with commitPulse := some 125, now := 110 } .commitPulseEnd).now = 125 := by decide +kernel

/-! ### Frame timing -/

/-- For P = 10,000 the window runs from 8,750 µs to 11,250 µs, in CLK periods 218,750 and 281,250 (R124). -/
theorem test_setFrame_window :
    reply (after claimant (.setFrame .p0 1 1 10000)) .p0 =
      (.ok, [1, 0, 0, 0x27, 0x10, 0x00, 0x03, 0x56, 0x7E, 0x00, 0x04, 0x4A, 0xA2]) := by decide +kernel
/-- For P = 100 the bounds are 2,188 and 2,812 CLK periods (R124). -/
theorem test_bounds_of_shortest_period : earlyBound 100 = 2188 ∧ lateBound 100 = 2812 := by decide +kernel

/-- TRACKING with source EXTERNAL and P = 100, the last boundary at 1000. -/
def tracking (flywheel : Byte) : State :=
  { held with
    now := 1000
    timing :=
      { Timing.reset with
        source := .external, period := 100, state := .tracking, lastBoundary := some 1000, flywheel := flywheel, frameNumber := 65535 } }

theorem test_fsyncEdge_early : (after (tracking 1) (.fsyncEdge 3187)).timing.earlySync = 1 := by decide +kernel
theorem test_fsyncEdge_on_early_bound :
    (after (tracking 1) (.fsyncEdge 3188)).toMode = [.boundary 0] ∧ (after (tracking 1) (.fsyncEdge 3188)).timing.flywheel = 0 := by
  decide +kernel
theorem test_windowExpiry_substitute :
    kinds (after (tracking 2) .windowExpiry) .p1 = [some (.frameSubstitute 3)]
      ∧ (after (tracking 2) .windowExpiry).timing.lastBoundary = some 3812 := by decide +kernel
theorem test_windowExpiry_loses :
    (after (tracking 3) .windowExpiry).timing.state = .lost ∧ (after (tracking 3) .windowExpiry).toMode = [.frameLoss] := by
  decide +kernel
/-- The internal timer runs 500,000 CLK periods for the reset period of 20,000 µs (R124, R126). -/
theorem test_enterFirst :
    (after { inMode .starting with toTiming := [.start 7] } .enterFirst).timing.timer = some 500007 := by decide +kernel
theorem test_enterStopped :
    (after { joined with toTiming := [.enterConfig], timing := (tracking 2).timing } .enterStopped).timing =
      { (tracking 2).timing with state := .stopped, lastBoundary := none }
      ∧ (after { joined with toTiming := [.enterConfig], toMode := [.boundary 5] } .enterStopped).toMode = [] := by decide +kernel
theorem test_internalTimer :
    (after { inMode .running with timing := { Timing.reset with state := .tracking, timer := some 900, frameNumber := 4 } }
      .internalTimer).timing.timer = some 500900 := by decide +kernel

/-! ### Witnesses: for every statement with hypotheses, states and operands that meet them, clause by clause -/

theorem witness_DeviceResetRestoresEveryBlock : Taken claimant .p0 ∧ claimant.mode = .config ∧ claimant.claim = some .p0 := by
  decide +kernel

theorem witness_FramesReadBackAsTheirCommands :
    (Instr.wf (.stage .p1 7 255 [1, 2, 3, 4]) = true
      ∧ Instr.parts (.stage .p1 7 255 [1, 2, 3, 4]) =
        some (.p1, .stage, 7, [255, 0, 0, 0, 1, 0, 0, 0, 2, 0, 0, 0, 3, 0, 0, 0, 4])
      ∧ (encodeFrame (.stage .p1 7 255 [1, 2, 3, 4])).isSome = true)
    ∧ Instr.wf (.join .p2 0 1) = true ∧ Instr.parts (.join .p2 0 1) = some (.p2, .join, 0, [1])
      ∧ encodeFrame (.join .p2 0 1) = some (buildFrame .join 0 [1]) := by decide +kernel
/-- A code of the table and one that names no command. -/
theorem witness_FramesReadBackAsTheirCommands_codes :
    commandOfCode 0x44 = some .seal ∧ Command.seal.code = 0x44 ∧ commandOfCode 0x00 = none ∧ commandOfCode 0x33 = none := by
  decide +kernel

/-- A port in reset and one whose transaction is lost; an OFFLINE port; a list of 18 groups, which no frame of DEFINE_BUNDLE
carries. -/
theorem witness_PortUnitAnswersBeforeAnyBlock :
    (portOf (.lease .p0 1 3) = some .p0 ∧ (Instr.lease .p0 1 3 : Instr) ≠ .csFalls .p0
      ∧ ¬ Hears { joined with resetLow := true } .p0 ∧ ¬ Hears (after (after joined (.csFalls .p0)) .powerUp) .p0)
    ∧ (Instr.parts (.lease .p0 1 3) = some (.p0, .lease, 1, [3]) ∧ Hears State.reset .p0 ∧ State.reset.isOnline .p0 = false
      ∧ ¬ (Command.lease = .join ∨ Command.lease = .status ∨ Command.lease = .nop))
    ∧ Instr.parts (.defineBundle .p0 1 0 (List.replicate 17 3)) = some (.p0, .defineBundle, 1, 0 :: List.replicate 17 3)
      ∧ Hears joined .p0 ∧ joined.isOnline .p0 = true
      ∧ Command.defineBundle.accepts (0 :: List.replicate 17 (3 : Byte)).length = false := by decide +kernel

/-- Length 64 and 65, 254 and 255 bytes received, and frames that fail at each later check, and at none. -/
theorem witness_BadFramesAnsweredCheckByCheck :
    Hears joined .p0 ∧ Hears State.reset .p0 ∧ frameBytes [0, 0] = [] ∧ frameBytes [0, 0x41] = [0x41]
    ∧ frameBytes [0x41, 9] = [0x41, 9]
    ∧ frameBytes (0x41 :: 9 :: 65 :: List.replicate 251 0) = 0x41 :: 9 :: 65 :: List.replicate 251 0
    ∧ frameBytes (0x41 :: 9 :: 64 :: List.replicate 64 0) = 0x41 :: 9 :: 64 :: List.replicate 64 0
    ∧ frameBytes (0x41 :: 9 :: 65 :: List.replicate 252 0) = 0x41 :: 9 :: 65 :: List.replicate 252 0
    ∧ frameBytes [0x51, 0x03, 0x03, 0x02, 0x01, 0x2C, 0x9E] = [0x51, 0x03, 0x03, 0x02, 0x01, 0x2C, 0x9E]
    ∧ commandOfCode 0x60 = none ∧ commandOfCode 0x51 = some .ack ∧ Command.ack.accepts 2 = false := by decide +kernel

theorem witness_ChipSelectShiftsHeldResponse :
    (State.reset.portUnit .p0).transaction = .idle ∧ State.reset.resetLow = false
    ∧ (({ State.reset with resetLow := true } : State).portUnit .p0).transaction = .idle
    ∧ ((after joined (.csFalls .p0)).portUnit .p0).transaction ≠ .idle := by decide +kernel

theorem witness_NopAndStatusAnsweredInEveryState : Hears State.reset .p3 ∧ Hears held .p3 := by decide +kernel

theorem witness_JoinOpensSession :
    Hears State.reset .p0 ∧ State.reset.isOnline .p0 = false ∧ Hears joined .p0 ∧ joined.isOnline .p0 = true
    ∧ (2 : Byte) ≠ 0x00 ∧ (2 : Byte) ≠ 0x01 := by decide +kernel

theorem witness_LeaveClosesSession : Taken held .p0 ∧ Taken held .p1 ∧ Taken claimant .p0 := by decide +kernel

/-- A state with a number of notices at P0. -/
def queued (n : Nat) (tail : List QueuedNotice) : State :=
  held.setPort .p0 { held.portUnit .p0 with queue := List.replicate n (.notice (.deferred 3 8 .acks) 5) ++ tail }

/-- n of 1 on three notices, n of 4 on one and on none, and the two n beside the range. -/
theorem witness_FetchTakesOldestNotices :
    Taken (queued 3 []) .p0
    ∧ ((queued 3 []).portUnit .p0).queue =
        [.notice (.deferred 3 8 .acks) 5] ++ List.replicate 2 (.notice (.deferred 3 8 .acks) 5)
    ∧ ((queued 1 []).portUnit .p0).queue = [.notice (.deferred 3 8 .acks) 5] ++ []
    ∧ (held.portUnit .p0).queue = [] ++ []
    ∧ (1 ≤ (1 : Byte).toNat ∧ (1 : Byte).toNat ≤ 4) ∧ (1 ≤ (4 : Byte).toNat ∧ (4 : Byte).toNat ≤ 4)
    ∧ ¬ (1 ≤ (0 : Byte).toNat ∧ (0 : Byte).toNat ≤ 4) ∧ ¬ (1 ≤ (5 : Byte).toNat ∧ (5 : Byte).toNat ≤ 4) := by decide +kernel

theorem witness_NoticeArrivalByQueueDepth :
    State.reset.isOnline .p0 = false ∧ (queued 30 []).isOnline .p0 = true
    ∧ ((queued 30 []).portUnit .p0).queue.length ≤ 30 ∧ ((queued 31 []).portUnit .p0).queue.length = 31
    ∧ ((queued 31 [.overflow 255 5]).portUnit .p0).queue =
        List.replicate 31 (.notice (.deferred 3 8 .acks) 5) ++ [.overflow 255 5]
    ∧ (List.replicate 31 (QueuedNotice.notice (.deferred 3 8 .acks) 5)).length = 31 := by decide +kernel
theorem witness_NoticeArrivalByQueueDepth_bounded :
    QueueBounded (List.replicate 31 (.notice (.deferred 3 8 .acks) 5) ++ [.overflow 255 5]) :=
  ⟨by decide, fun x h => by obtain rfl : QueuedNotice.overflow 255 5 = x := by simpa using h
                            rfl⟩

theorem witness_ClaimIsTakenAndGivenUp :
    Taken held .p0 ∧ held.mode ≠ .config ∧ Taken joined .p0 ∧ joined.mode = .config ∧ joined.claim = none
    ∧ Taken claimant .p0 ∧ claimant.claim = some .p0 ∧ Taken claimant .p1 ∧ Port.p0 ≠ .p1 := by decide +kernel

theorem witness_LayoutCommandsNeedModeAndClaim :
    Instr.parts (.defineGroup .p1 7 15 1 2 3) = some (.p1, .defineGroup, 7, [15, 1, 2, 3]) ∧ needsClaim .defineGroup = true
    ∧ Command.defineGroup.accepts [(15 : Byte), 1, 2, 3].length = true ∧ Taken held .p1 ∧ held.mode ≠ .config
    ∧ Taken claimant .p1 ∧ claimant.mode = .config ∧ claimant.claim ≠ some .p1 := by decide +kernel

/-- A check of every entry of the table, read at an index. -/
theorem entry_of_all {s : State} {P : Option Entry → Bool} (h : s.entries.toList.all P = true) (i : Byte) :
    P (s.entry i) = true :=
  List.all_eq_true.mp h _ (by simp [State.entry])

theorem witness_StartEntersStarting : Taken claimant .p0 ∧ claimant.mode = .config ∧ claimant.claim = some .p0 := by
  decide +kernel
/-- A FAN is sound when the soundness test passes, so that a witness is found by evaluation. -/
theorem fanSound_of {s : State} {f : FanEntry} (h : soundEntry s (some (.fan f)) = true) : FanSound s f :=
  (soundEntry_fan s f).mp h
theorem not_fanSound_of {s : State} {f : FanEntry} (h : soundEntry s (some (.fan f)) = false) : ¬ FanSound s f :=
  fun sound => by simp [(soundEntry_fan s f).mpr sound] at h

theorem witness_StartEntersStarting_sound : ∀ i f, claimant.entry i = some (.fan f) → FanSound claimant f :=
  fun i _ h => fanSound_of (h ▸ entry_of_all (P := soundEntry claimant) (by decide +kernel) i)

/-- A CONFIG with two FANs that are not sound, E7 the first. -/
def unsound : State := (claimant.setEntry 7 (some (.fan ⟨0, PortSet.every, [8]⟩))).setEntry 9 (some (.fan ⟨0, PortSet.every, [8]⟩))
theorem witness_StartEntersStarting_unsound :
    unsound.entry 7 = some (.fan ⟨0, PortSet.every, [8]⟩) ∧ ¬ FanSound unsound ⟨0, PortSet.every, [8]⟩
    ∧ ∀ j : Byte, j.toNat < (7 : Byte).toNat → unsound.entry j = none :=
  ⟨by decide +kernel, not_fanSound_of (by decide +kernel), by decide +kernel⟩

theorem witness_StopAndResumeByMode :
    Taken (inMode .config) .p0 ∧ Taken (inMode .starting) .p1 ∧ Taken (inMode .running) .p2 ∧ Taken (inMode .stopping) .p3
    ∧ Taken (inMode .fault) .p0 ∧ (inMode .fault).mode = .fault ∧ (inMode .stopping).mode ≠ .fault := by decide +kernel

theorem witness_ModeControlTakesReports :
    ({ held with toMode := [.boundary 5, .frameLoss] } : State).toMode = .boundary 5 :: [.frameLoss]
    ∧ ({ held with toMode := [.frameLoss] } : State).toMode = .frameLoss :: [] ∧ held.toMode = []
    ∧ ModeMessage.enterConfig ∈ [ModeMessage.enterConfig, .start 9] ∧ ModeMessage.enterConfig ∉ held.toTiming := by decide +kernel

/-- The writer-set bytes 0Fh and FFh, widths 1 and 4, and the bytes beside each range. -/
theorem witness_DefineEntryWithoutLimits :
    Taken claimant .p0 ∧ claimant.mode = .config ∧ claimant.claim = some .p0
    ∧ WritersByte 0x0F ⟨true, true, true, true⟩ ∧ WritersByte 0xFF PortSet.every ∧ WritersByte 0 PortSet.none
    ∧ (1 ≤ [(1 : Word)].length ∧ [(1 : Word)].length ≤ 4) ∧ [(1 : Word), 2, 3, 4].length ≤ 4
    ∧ 16 ≤ (16 : Byte).toNat ∧ 5 ≤ (5 : Byte).toNat ∧ (16 ≤ (0x10 : Byte).toNat ∧ (0x10 : Byte) ≠ 0xFF)
    ∧ (16 ≤ (0xFE : Byte).toNat ∧ (0xFE : Byte) ≠ 0xFF) ∧ [(1 : Word), 2].length ≠ (1 : Byte).toNat
    ∧ ((1 : Byte) ≠ 0x00 ∧ ([(1 : Word)].length ≠ (1 : Byte).toNat + 2 ∨ 2 ≤ (1 : Byte).toNat))
    ∧ ((4 : Byte) ≠ 0x00 ∧ ([(1 : Word), 2, 3, 4].length ≠ (2 : Byte).toNat + 2 ∨ 2 ≤ (2 : Byte).toNat)) := by decide +kernel

/-- Signed and unsigned limits whose order differs, words on and beside each limit, a full store and one word left. -/
theorem witness_DefineEntryWithLimits :
    Taken claimant .p0 ∧ claimant.mode = .config ∧ claimant.claim = some .p0 ∧ WritersByte 0x0F PortSet.every
    ∧ ¬ (0xFFFFFFFF : Word).toNat ≤ (0 : Word).toNat ∧ (0xFFFFFFFF : Word).toInt ≤ (0 : Word).toInt
    ∧ claimant.entry 10 = none ∧ table1.entry 10 ≠ none ∧ Taken table1 .p0 ∧ table1.mode = .config ∧ table1.claim = some .p0
    ∧ ¬ ((10 : Word).toNat ≤ (9 : Word).toNat ∧ (9 : Word).toNat ≤ (20 : Word).toNat)
    ∧ ¬ ((10 : Word).toNat ≤ (21 : Word).toNat ∧ (21 : Word).toNat ≤ (20 : Word).toNat)
    ∧ ((10 : Word).toNat ≤ (10 : Word).toNat ∧ (20 : Word).toNat ≤ (20 : Word).toNat)
    ∧ ({ claimant with freeWords := 0 } : State).freeWords = 0 ∧ 1 ≤ ({ claimant with freeWords := 1 } : State).freeWords := by
  decide +kernel

theorem witness_FansDefinedAndEntriesDeleted :
    Taken claimant .p0 ∧ claimant.mode = .config ∧ claimant.claim = some .p0 ∧ WritersByte 0xFF PortSet.every
    ∧ [(1 : Byte), 2, 3, 4].length ≤ 4 ∧ ¬ [(1 : Byte), 2, 1].Nodup ∧ (7 : Byte) ∈ [(6 : Byte), 7]
    ∧ ((15 : Byte) = groupByte 15 ∧ [(1 : Byte), 2, 3, 4] ≠ [] ∧ [(1 : Byte), 2, 3, 4].Nodup ∧ (7 : Byte) ∉ [(1 : Byte), 2, 3, 4])
    ∧ Taken table1 .p0 ∧ table1.entry 9 = none ∧ table1.entry 10 ≠ none := by decide +kernel

/-- An undefined index, a VALUE entry, a sound FAN, and a FAN one of whose targets is of another group. -/
theorem witness_ReadShowsActiveValue :
    Taken held .p2 ∧ held.entry 9 = none ∧ held.entry 10 = some (.value
        { group := 3, width := 1, active := [7], staged := some [8], epoch := 3, writers := ⟨true, false, true, true⟩, limits := none })
    ∧ held.entry 13 = some (.fan ⟨3, PortSet.every, [10, 11]⟩)
    ∧ held.entry 11 = some (wordEntry 3 20 none (some (unsignedLimits .clamp))) := by decide +kernel
theorem witness_ReadShowsActiveValue_sound : FanSound held ⟨3, PortSet.every, [10, 11]⟩ := fanSound_of (by decide +kernel)
theorem witness_ReadShowsActiveValue_unsound : ¬ FanSound held ⟨3, PortSet.every, [10, 12]⟩ :=
  not_fanSound_of (by decide +kernel)

/-- The items of E10 and, through its first target, of the FAN E13; one index and eight; the first index that fails standing
first, and behind one that does not. -/
theorem witness_ReadSetShowsEveryItem :
    let v : ValueEntry :=
      { group := 3, width := 1, active := [7], staged := some [8], epoch := 3, writers := ⟨true, false, true, true⟩, limits := none }
    Taken held .p2 ∧ ShownBy held 10 v ∧ ShownBy held 13 v ∧ (List.replicate 8 (10 : Byte)).length ≤ 8
    ∧ [(10 : Byte), 9, 12] = [10] ++ 9 :: [12] ∧ held.entry 9 = none ∧ Taken unsound .p2
    ∧ unsound.entry 7 = some (.fan ⟨0, PortSet.every, [8]⟩) ∧ ¬ FanSound unsound ⟨0, PortSet.every, [8]⟩
    ∧ (∀ w ∈ [1, 4, 3, 2, 1], 1 ≤ w ∧ w ≤ 4)
    ∧ (widthMap [1, 4, 3, 2, 1])[7 / 4]? = some 0x00 ∧ [1, 4, 3, 2, 1][7]? = none := by
  have entry := witness_ReadShowsActiveValue.2.2
  exact ⟨by decide +kernel, .inl entry.1, .inr ⟨_, 10, [11], entry.2.1, witness_ReadShowsActiveValue_sound, rfl, entry.1⟩,
    by decide, rfl, by decide +kernel, by decide +kernel, witness_StartEntersStarting_unsound.1,
    witness_StartEntersStarting_unsound.2.1, by decide, by decide, by decide⟩

theorem witness_DefineGroupReplacesParameters :
    Taken held .p0 ∧ held.mode ≠ .config ∧ Taken claimant .p1 ∧ claimant.mode = .config ∧ claimant.claim ≠ some .p1
    ∧ Taken claimant .p0 ∧ claimant.claim = some .p0 ∧ 16 ≤ (16 : Byte).toNat ∧ (15 : Byte) = groupByte 15 ∧ (1 : Byte) ≠ 0 := by
  decide +kernel

/-- A group of a bundle and a group of none. -/
theorem witness_GroupStatusShowsRecord :
    Taken held .p2 ∧ 16 ≤ (16 : Byte).toNat
    ∧ (inSet (held.bundle 0) 3 = true ∧ ∀ c, inSet (held.bundle c) 3 = true → c = 0) ∧ (∀ b, inSet (held.bundle b) 5 = false) := by
  decide +kernel

theorem witness_SubscribeChangesOwnSubscription :
    Taken held .p2 ∧ 16 ≤ (16 : Byte).toNat ∧ 4 ≤ (4 : Byte).toNat ∧ (3 : Byte) = groupByte 3 ∧ Subscription.ackMarked ≠ .lapsed
    ∧ (3 : Byte) = subscriptionCode .ackMarked ∧ (held.group 3).outstanding.get .p2 = true
    ∧ (held.group 3).outstanding.get .p1 = false := by decide +kernel

theorem witness_AckRemovesCallerForCurrentEpoch :
    Taken joined .p0 ∧ joined.mode = .config ∧ Taken (inMode .starting) .p0 ∧ (inMode .starting).mode = .starting
    ∧ Taken held .p2 ∧ held.mode ≠ .config ∧ held.mode ≠ .starting ∧ 16 ≤ (16 : Byte).toNat ∧ (3 : Byte) = groupByte 3
    ∧ Taken held .p1 ∧ (held.group 3).outstanding.get .p1 = false ∧ (held.group 3).outstanding.get .p2 = true
    ∧ (3 : Half) ≠ (held.group 3).epoch ∧ (4 : Half) = (held.group 3).epoch := by decide +kernel

/-- A free lease, the lessee, a waiting port and a port that is neither. -/
theorem witness_LeaseByModeAndStanding :
    Taken joined .p0 ∧ joined.mode ≠ .running ∧ joined.mode ≠ .fault ∧ 16 ≤ (16 : Byte).toNat
    ∧ Taken held .p0 ∧ held.mode = .running ∧ (held.group 4).lessee = none ∧ (held.group 3).lessee = some .p0
    ∧ Taken held .p1 ∧ Port.p0 ≠ .p1 ∧ (held.group 3).waitQueue = [] ++ Port.p1 :: [] ∧ Port.p1 ∉ ([] : List Port)
    ∧ Taken held .p2 ∧ Port.p2 ∉ (held.group 3).waitQueue := by decide +kernel

theorem witness_ReleaseByLesseePassesLease :
    Taken held .p0 ∧ held.mode ≠ .config ∧ held.mode ≠ .starting ∧ (held.group 5).lessee = some .p0
    ∧ (held.group 5).waitQueue = [] ∧ (held.group 3).lessee = some .p0 ∧ (held.group 3).waitQueue = .p1 :: [] := by decide +kernel

theorem witness_ReleaseByOthersLeavesLease :
    Taken joined .p1 ∧ joined.mode = .config ∧ Taken held .p1 ∧ held.mode ≠ .config ∧ held.mode ≠ .starting
    ∧ 16 ≤ (16 : Byte).toNat ∧ (held.group 3).lessee ≠ some .p1 ∧ (held.group 3).waitQueue = [] ++ Port.p1 :: []
    ∧ Port.p1 ∉ ([] : List Port) ∧ Taken held .p2 ∧ (held.group 3).lessee ≠ some .p2 ∧ Port.p2 ∉ (held.group 3).waitQueue := by
  decide +kernel

/-- Each check failing where those before it pass; E12's group is leased by P0, G3 SEALED. -/
theorem witness_WriterCommandsCheckedInOrder :
    Taken held .p0 ∧ Taken joined .p0 ∧ joined.mode = .config ∧ held.mode = .running ∧ held.entry 9 = none
    ∧ Taken held .p1 ∧ held.entry 10 ≠ none ∧ (held.group 3).lessee ≠ some .p1 ∧ (held.group 3).lessee = some .p0
    ∧ Taken (sealedDueState 1 0 8 PortSet.none) .p0 ∧ ((sealedDueState 1 0 8 PortSet.none).group 3).state = .sealed
    ∧ ((sealedDueState 1 0 8 PortSet.none).group 3).lessee = some .p0 ∧ (sealedDueState 1 0 8 PortSet.none).mode = .running
    ∧ ([(1 : Word)].length = 1 ∧ [(1 : Word), 2, 3, 4].length ≤ 4) ∧ 16 ≤ (16 : Byte).toNat ∧ 2 ≤ (2 : Byte).toNat
    ∧ (15 : Byte).toNat ≤ 15 ∧ (1 : Byte).toNat ≤ 1 ∧ (3 : Byte) = groupByte 3 := by decide +kernel

/-- The words on and beside the limits 10 and 1000 of E11, under both policies; E10 has none and its writers leave P1 out. -/
theorem witness_StageOfValueEntry :
    Taken held .p0 ∧ held.mode = .running ∧ (held.group 3).lessee = some .p0 ∧ (held.group 3).state ≠ .sealed
    ∧ held.entry 10 = some (wordEntry 3 7 (some [8]) none)
    ∧ held.entry 11 = some (wordEntry 3 20 none (some (unsignedLimits .clamp)))
    ∧ [(1 : Word), 2].length ≠ 1 ∧ (⟨true, false, true, true⟩ : PortSet).get .p0 = true
    ∧ (⟨true, false, true, true⟩ : PortSet).get .p1 = false
    ∧ Taken (held.setGroup 3 { held.group 3 with lessee := some .p1 }) .p1
    ∧ ((held.setGroup 3 { held.group 3 with lessee := some .p1 }).group 3).lessee = some .p1
    ∧ (LimitKind.unsigned.le 10 10 = true ∧ LimitKind.unsigned.le 1000 1000 = true)
    ∧ LimitKind.unsigned.le 10 9 = false ∧ LimitKind.unsigned.le 1001 1000 = false := by decide +kernel

theorem witness_StageOfFanEntry :
    Taken held .p0 ∧ held.mode = .running ∧ held.entry 13 = some (.fan ⟨3, PortSet.every, [10, 11]⟩)
    ∧ (held.group 3).lessee = some .p0 ∧ (held.group 3).state ≠ .sealed ∧ [(5 : Word), 6].length ≠ 1
    ∧ held.entry 10 = some (wordEntry 3 7 (some [8]) none)
    ∧ held.entry 11 = some (wordEntry 3 20 none (some (unsignedLimits .clamp)))
    ∧ (PortSet.every.get .p0 = true ∧ (⟨true, false, true, true⟩ : PortSet).get .p0 = true)
    ∧ ((⟨false, true, true, true⟩ : PortSet).get .p0 = false) ∧ (⟨true, false, true, true⟩ : PortSet).get .p1 = false
    ∧ (admitWord (none) 9).isSome = true ∧ (admitWord (some (unsignedLimits .clamp)) 9).isSome = true
    ∧ admitWord (some (unsignedLimits .refuse)) 9 = none
    ∧ ((10 : Word).toNat ≤ (10 : Word).toNat ∧ (0xFFFFFFFF : Word).toInt ≤ (0 : Word).toInt) := by decide +kernel

theorem witness_UnstageRemovesStagedValues :
    Taken held .p0 ∧ held.mode = .running ∧ held.entry 10 ≠ none ∧ held.entry 13 ≠ none ∧ (held.group 3).lessee = some .p0
    ∧ (held.group 3).state = .staging ∧ held.entry 13 = some (.fan ⟨3, PortSet.every, [10, 11]⟩)
    ∧ held.entry 12 ≠ none ∧ (held.group 5).lessee = some .p0 ∧ (held.group 5).state = .idle
    ∧ ((sealedDueState 1 0 8 PortSet.none).group 3).state = .sealed := by decide +kernel

theorem witness_SealClosesAndUnsealReopens :
    Taken held .p0 ∧ held.mode = .running ∧ (15 : Byte).toNat ≤ 15 ∧ (held.group 3).lessee = some .p0
    ∧ (held.group 3).state ≠ .sealed ∧ (held.group 5).lessee = some .p0 ∧ (held.group 5).state = .idle
    ∧ Taken (sealedDueState 1 0 8 PortSet.none) .p0 ∧ ((sealedDueState 1 0 8 PortSet.none).group 3).lessee = some .p0
    ∧ ((sealedDueState 1 0 8 PortSet.none).group 3).state = .sealed := by decide +kernel

theorem witness_ReadStagedShowsLesseeTheSet :
    Taken held .p0 ∧ held.mode = .running ∧ held.entry 10 = some (wordEntry 3 7 (some [8]) none)
    ∧ held.entry 11 = some (wordEntry 3 20 none (some (unsignedLimits .clamp))) ∧ (held.group 3).lessee = some .p0
    ∧ held.entry 13 = some (.fan ⟨3, PortSet.every, [10, 11]⟩)
    ∧ Taken { held with mode := .stopping } .p0 := by decide +kernel

/-- G3 is of bundle 0; a list that names it for bundle 1, a list that empties a bundle, a list that names all sixteen. -/
theorem witness_DefineBundleReplacesMembers :
    Taken claimant .p0 ∧ claimant.mode = .config ∧ claimant.claim = some .p0 ∧ 4 ≤ (4 : Byte).toNat
    ∧ [(3 : Byte)].length = 1 ∧ 16 ≤ (16 : Byte).toNat ∧ ¬ [(3 : Byte), 3].Nodup
    ∧ ((3 : Byte) = BitVec.ofNat 8 (3 : BundleId).val ∧ allGroups.Nodup ∧ (allGroups.map groupByte).length = 16
      ∧ ∀ g : GroupId, inSet (0xFFFF : GroupSet) g = true ↔ g ∈ allGroups)
    ∧ (∀ g : GroupId, inSet (0 : GroupSet) g = true ↔ g ∈ ([] : List GroupId))
    ∧ (∀ g ∈ allGroups, ∀ d, d ≠ (3 : BundleId) → inSet (claimant.bundle d) g = false) := by decide +kernel
theorem witness_DefineBundleReplacesMembers_elsewhere :
    [(2 : GroupId), 3, 4] = [2] ++ 3 :: [4]
    ∧ (∀ h ∈ [(2 : GroupId)], ∀ d, d ≠ (1 : BundleId) → inSet ((claimant.setBundle 0 0x0018).bundle d) h = false)
    ∧ (0 : BundleId) ≠ 1 ∧ inSet ((claimant.setBundle 0 0x0018).bundle 0) 3 = true
    ∧ (∀ d, d ≠ (1 : BundleId) → inSet ((claimant.setBundle 0 0x0018).bundle d) 3 = true → d = 0) := by decide +kernel

/-- A boundary whose commit unit's part is over, with a patience step and an ack step of G9 left. -/
def closedWork : BoundaryWork := { work 0 0 0x0200 0x0200 with closed := true }

/-- Boundaries in RUNNING and at START, opened and not; evaluations owed and not; a pulse and none. -/
theorem witness_BoundaryWorkOpensAndCloses :
    (∀ x ∈ [closedWork], x.closed = true) ∧ (work 0 0 0 0).closed = false ∧ (work 0 0 0 0).opened = true
    ∧ ({ work 0 0 0 0 with opened := false } : BoundaryWork).opened = false
    ∧ (∀ g : GroupId, inSet (0xFFE7 : GroupSet) g = true ↔
        (((work 0 0 0 0).kind = .run ∨ (work 0 0 0 0).kind = .resume) ∧ ∀ b, inSet (held.bundle b) g = false))
    ∧ (∀ b : BundleId, inSet (1 : BundleSet) b = true ↔
        (((work 0 0 0 0).kind = .run ∨ (work 0 0 0 0).kind = .resume) ∧ held.bundle b ≠ 0))
    ∧ (∀ g : GroupId, inSet (0 : GroupSet) g = true ↔
        (({ work 0 0 0 0 with kind := .start } : BoundaryWork).kind = .run
          ∨ ({ work 0 0 0 0 with kind := .start } : BoundaryWork).kind = .resume) ∧ ∀ b, inSet (held.bundle b) g = false)
    ∧ (work 0 0 0 0).groupEvals = 0 ∧ (work 0 0 0 0).bundleEvals = 0 ∧ (work 0x8000 0 0 0).groupEvals ≠ 0
    ∧ (∀ x ∈ held.boundaries, x.closed = true)
    ∧ ({ held with commitPulse := some 0 } : State).commitPulse = some 0 ∧ held.commitPulse = none := by decide +kernel

theorem witness_CommitMakesSetActive :
    ({ held with boundaries := [closedWork, work 8 0 0 0] } : State).boundaries = [closedWork] ++ work 8 0 0 0 :: []
    ∧ (∀ x ∈ [closedWork], x.closed = true) ∧ (work 8 0 0 0).closed = false := by decide +kernel

theorem witness_GroupEvaluationCommitsOrDefers :
    ({ held with boundaries := [closedWork, work 8 0 0 0] } : State).boundaries = [closedWork] ++ work 8 0 0 0 :: []
    ∧ (∀ x ∈ [closedWork], x.closed = true) ∧ (work 8 0 0 0).closed = false ∧ (work 8 0 0 0).opened = true
    ∧ inSet (work 8 0 0 0).groupEvals 3 = true ∧ inSet (work 8 0 0 0).groupEvals 4 = false
    ∧ (work 8 0 0 0).void = false ∧ (stopped (work 8 0 0 0)).void = true := by decide +kernel

/-- A bundle that is ready, one held back by a STAGING member, one whose countdown is not yet over, and one not evaluated. -/
theorem witness_BundleEvaluationCommitsTogether :
    let s : State := { sealedDueState 1 0 8 PortSet.none with boundaries := [closedWork, work 0 1 0 0] }
    s.boundaries = [closedWork] ++ work 0 1 0 0 :: [] ∧ (∀ x ∈ [closedWork], x.closed = true) ∧ (work 0 1 0 0).closed = false
    ∧ (work 0 1 0 0).opened = true ∧ inSet (work 0 1 0 0).bundleEvals 0 = true ∧ s.mode = .running
    ∧ (∀ g, inSet (s.bundle 0) g = true → (s.group g).state ≠ .staging)
    ∧ (∃ g, (inSet (s.bundle 0) g && (s.group g).state == .sealed) = true)
    ∧ (∀ g, (inSet (s.bundle 0) g && (s.group g).state == .sealed) = true →
        (s.group g).countdown.toNat ≤ 1 ∧ (s.group g).outstanding = ⟨false, false, false, false⟩)
    ∧ ¬ (∀ g, inSet (held.bundle 0) g = true → (held.group g).state ≠ .staging)
    ∧ ¬ ((sealedDueState 2 0 8 PortSet.none).group 3).countdown.toNat ≤ 1
    ∧ (work 0 1 0 0).void = false ∧ (stopped (work 0 1 0 0)).void = true ∧ inSet (work 0 1 0 0).bundleEvals 1 = false := by
  decide +kernel

/-- A command's next state, where it answers one. -/
theorem exec_after {c : Instr} {s : State}
    (h : (match exec c s with | .next _ => true | .fault _ => false | .refused _ => false) = true) :
    exec c s = .next (after s c) := by
  unfold after
  split at h <;> simp_all

def ready : State := { sealedDueState 1 0 8 PortSet.none with boundaries := [work 0 1 0 0] }

theorem atWork_ready (rest : List Instr) : AtWork { ready with pending := rest } (work 0 1 0 0) :=
  ⟨[], [], rfl, by simp, rfl⟩

/-- The boundary at work is the first that is not closed. -/
theorem atWork_singleton {s : State} {v w : BoundaryWork} (h : s.boundaries = [v]) (at_ : AtWork s w) : w = v := by
  obtain ⟨before, behind, parts, -, -⟩ := at_
  rw [h] at parts
  cases before <;> simp_all

/-- A ready bundle, one of which no evaluation is owed, and one whose evaluation a STOP made void. -/
theorem witness_BundleMembersCommitAllOrNone :
    exec (.bundleEvaluation 0) ready = .next (after ready (.bundleEvaluation 0))
    ∧ (exec (.bundleEvaluation 1) ready = .next (after ready (.bundleEvaluation 1))
      ∧ ∀ w, AtWork ready w → w.opened = false ∨ inSet w.bundleEvals 1 = false ∨ w.void = true)
    ∧ ∀ w, AtWork { ready with boundaries := [stopped (work 0 1 0 0)] } w → w.void = true :=
  ⟨exec_after (by decide +kernel),
    ⟨exec_after (by decide +kernel), fun w at_ => by
      rw [atWork_singleton (s := ready) rfl at_]
      decide⟩,
    fun w at_ => by
      rw [atWork_singleton (v := stopped (work 0 1 0 0)) rfl at_]
      rfl⟩

/-- Below the limit by one and by more; STAGING and IDLE; a boundary before it that owes G3 nothing. -/
theorem witness_PatienceStepRevokesAtLimit :
    ({ held with boundaries := [closedWork, work 0 0 8 0] } : State).boundaries = [closedWork] ++ work 0 0 8 0 :: []
    ∧ (∀ x ∈ [closedWork], inSet x.patienceSteps 3 = false) ∧ inSet (work 0 0 8 0).patienceSteps 3 = true
    ∧ held.mode = .running ∧ inSet (work 0 0 8 0).committed 3 = false ∧ (held.group 3).patienceLimit ≠ 0
    ∧ (held.group 3).waitQueue = .p1 :: [] ∧ (held.group 3).state ≠ .sealed ∧ (held.group 3).lessee = some .p0
    ∧ (held.group 4).patienceLimit = 0 ∧ (held.group 5).waitQueue = []
    ∧ (work 0 0 8 0).void = false ∧ (stopped (work 0 0 8 0)).void = true
    ∧ (∀ x ∈ held.boundaries, inSet x.patienceSteps 3 = false) := by decide +kernel

/-- The ack ages 254 and 255 as well as 5 with deadline 6. -/
theorem witness_AckStepLapsesAtDeadline :
    ({ held with boundaries := [closedWork, work 0 0 0 8] } : State).boundaries = [closedWork] ++ work 0 0 0 8 :: []
    ∧ (∀ x ∈ [closedWork], inSet x.ackSteps 3 = false) ∧ inSet (work 0 0 0 8).ackSteps 3 = true
    ∧ (∀ x ∈ held.boundaries, inSet x.ackSteps 3 = false) := by decide +kernel

/-- The periods 99, 100, 1,000,000 and 1,000,001, and the bounds of the shortest and the longest. -/
theorem witness_SetFrameReplacesSourceAndPeriod :
    Taken held .p0 ∧ held.mode ≠ .config ∧ Taken claimant .p1 ∧ claimant.mode = .config ∧ claimant.claim ≠ some .p1
    ∧ Taken claimant .p0 ∧ claimant.claim = some .p0 ∧ 2 ≤ (2 : Byte).toNat ∧ (1 : Byte).toNat ≤ 1
    ∧ (99 : Word).toNat < 100 ∧ 1000000 < (1000001 : Word).toNat
    ∧ (100 ≤ (100 : Word).toNat ∧ (100 : Word).toNat ≤ 1000000)
    ∧ (100 ≤ (1000000 : Word).toNat ∧ (1000000 : Word).toNat ≤ 1000000)
    ∧ (7 * 25 * (100 : Word).toNat ≤ 8 * 2188 ∧ 8 * 2188 < 7 * 25 * (100 : Word).toNat + 8)
    ∧ (8 * 2812 ≤ 9 * 25 * (100 : Word).toNat ∧ 9 * 25 * (100 : Word).toNat < 8 * 2812 + 8)
    ∧ (7 * 25 * (1000000 : Word).toNat ≤ 8 * 21875000 ∧ 8 * 28125000 ≤ 9 * 25 * (1000000 : Word).toNat) := by decide +kernel

theorem witness_FrameTimingTakesMessages :
    ({ held with toTiming := [.start 7, .enterConfig] } : State).toTiming = .start 7 :: [.enterConfig]
    ∧ ({ held with toTiming := [.enterConfig] } : State).toTiming = .enterConfig :: [] ∧ held.toTiming = [] := by decide +kernel

/-- Every timing state with both sources; edges one period of CLK before and on the early bound, on and after the late bound. -/
theorem witness_FsyncEdgeJudgedByState :
    ({ held with resetLow := true } : State).resetLow = true ∧ held.resetLow = false ∧ held.timing.state = .stopped
    ∧ (tracking 0).timing.state = .tracking ∧ (tracking 0).timing.source = .external
    ∧ (tracking 0).timing.lastBoundary = some 1000
    ∧ ({ Timing.reset with state := .first } : Timing).source = .internal
    ∧ ({ Timing.reset with state := .first, source := .external } : Timing).state = .first
    ∧ ({ Timing.reset with state := .lost, source := .external } : Timing).resumeArmed = false
    ∧ ({ Timing.reset with state := .lost, resumeArmed := true } : Timing).resumeArmed = true
    ∧ 8 * 3187 < 8 * 1000 + 7 * 25 * (tracking 0).timing.period.toNat
    ∧ ¬ 8 * 3188 < 8 * 1000 + 7 * 25 * (tracking 0).timing.period.toNat
    ∧ 8 * 3812 ≤ 8 * 1000 + 9 * 25 * (tracking 0).timing.period.toNat
    ∧ ¬ 8 * 3813 ≤ 8 * 1000 + 9 * 25 * (tracking 0).timing.period.toNat := by decide +kernel

/-- The flywheel counts 2 and 3; the timer running in FIRST and TRACKING, and each ground for no expiry. -/
theorem witness_TimersProduceBoundaries :
    (tracking 2).timing.state = .tracking ∧ (tracking 2).timing.source = .external ∧ (tracking 2).timing.lastBoundary = some 1000
    ∧ (8 * 2812 ≤ 9 * 25 * (tracking 2).timing.period.toNat ∧ 9 * 25 * (tracking 2).timing.period.toNat < 8 * 2812 + 8)
    ∧ (tracking 2).timing.flywheel.toNat ≤ 2 ∧ (tracking 3).timing.flywheel = 3
    ∧ held.timing.timer = none ∧ held.timing.state ≠ .tracking
    ∧ ({ Timing.reset with state := .first, timer := some 900 } : Timing).timer = some 900
    ∧ ({ Timing.reset with state := .first, timer := some 900 } : Timing).source = .internal := by decide +kernel

/-! The invariants: `held` meets them all, and its next command has an effect. -/

def heldReady : State := { held with pending := [.seal .p0 1 3 0 1] }

theorem heldReady_group (g : GroupId) :
    heldReady.group g =
      if g = 3 then
        { Group.reset with
          state := .staging, epoch := 4, lessee := some .p0, waitQueue := [.p1], patience := 1, patienceLimit := 3
          subscriptions := ⟨.none, .observe, .ackAll, .none⟩, outstanding := ⟨false, false, true, false⟩, ackAge := 5
          ackDeadline := 6, lastSealer := some .p3 }
      else if g = 5 then { Group.reset with epoch := 9, lessee := some .p0 } else Group.reset := by
  revert g
  decide +kernel

theorem heldReady_entry (i : Byte) :
    heldReady.entry i =
      if i = 13 then some (.fan ⟨3, PortSet.every, [10, 11]⟩)
      else if i = 12 then some (wordEntry 5 20 none none)
      else if i = 11 then some (wordEntry 3 20 none (some (unsignedLimits .clamp)))
      else if i = 10 then some (wordEntry 3 7 (some [8]) none)
      else none := by
  revert i
  decide +kernel

theorem heldReady_port (p : Port) :
    heldReady.portUnit p = { PortUnit.reset with session := .online, sessionNumber := 1, attention := true } := by
  cases p <;> decide +kernel


theorem heldReady_sound : Sound heldReady where
  queues p := by rw [heldReady_port]; exact ⟨by decide, by simp [PortUnit.reset]⟩
  quiet p h := by simp [State.isOnline, heldReady_port] at h
  responses p := by rw [heldReady_port]; exact ⟨by decide, by simp [PortUnit.reset]⟩
  store := by
    refine ⟨by decide +kernel, fun i e h => ?_⟩
    rw [heldReady_entry] at h
    split at h <;> (try split at h) <;> (try split at h) <;> (try split at h) <;> simp at h <;> subst h <;>
      simp [EntryShaped, wordEntry]
  limits i v l h := by
    rw [heldReady_entry] at h
    split at h <;> (try split at h) <;> (try split at h) <;> (try split at h) <;> simp [wordEntry] at h <;> subst h <;>
      (simp +contextual [unsignedLimits]; try (rintro rfl; decide))
  epochs i v h := by
    rw [heldReady_entry] at h
    split at h <;> (try split at h) <;> (try split at h) <;> (try split at h) <;> simp [wordEntry] at h <;> subst h <;>
      rw [heldReady_group] <;> decide
  leases g := by
    rw [heldReady_group]
    simp only [LeaseOrdered, State.isOnline, heldReady_port]
    split
    · simp +contextual
    · split <;> simp [Group.reset]
  patience g := by
    rw [heldReady_group]
    split
    · exact ⟨by decide, by decide⟩
    · split <;> simp [Group.reset]
  obligations g p := by
    rw [heldReady_group]
    simp only [State.isOnline, heldReady_port]
    split
    · cases p <;> decide
    · split <;> cases p <;> decide
  groups := by
    refine ⟨fun g => ?_, fun i v h => ?_⟩
    · rw [heldReady_group]
      split
      · exact ⟨by decide, by decide, by decide, by decide⟩
      · split <;> exact ⟨by decide, by decide, by decide, by decide⟩
    · rw [heldReady_entry] at h
      split at h <;> (try split at h) <;> (try split at h) <;> (try split at h) <;> simp [wordEntry] at h <;> subst h <;>
        rw [heldReady_group] <;> decide
  claim p h := by cases h
  fans _ i _ h := fanSound_of (h ▸ entry_of_all (P := soundEntry heldReady) (by decide +kernel) i)
  bundles := ⟨by decide +kernel, by decide +kernel⟩
  timing := by unfold TimingBounded; decide +kernel
  stopped := nofun
  reports := ⟨nofun, fun _ => ⟨nofun, nofun⟩⟩
  held h := by cases h

/-- The step that takes the one command waiting. -/
theorem step_after {c : Instr} {s : State} (idle : s.pending = [])
    (h : (match exec c s with | .next _ => true | .fault _ => false | .refused _ => false) = true) :
    step { s with pending := [c] } = .next (after s c) := by
  rw [← exec_after h]
  cases s
  cases idle
  rfl

theorem witness_StepKeeps : Sound heldReady ∧ step heldReady = .next (after held (.seal .p0 1 3 0 1)) :=
  ⟨heldReady_sound, step_after (s := held) rfl (by decide +kernel)⟩

/-- The laws of work in flight are met in STOPPING with a boundary owed and void, and in STARTING with its boundary reported. -/
theorem witness_StepKeepsLayoutAndTimingLegal :
    StoppedWorkVoid { inMode .stopping with boundaries := [stopped (work 8 0 8 8)] }
    ∧ ReportsFresh { inMode .starting with toMode := [.boundary 0, .boundary 1] } :=
  ⟨fun _ w h _ => by
      obtain rfl : w = stopped (work 8 0 8 8) := by simpa using h
      rfl,
    nofun, fun _ => ⟨nofun, fun _ => .inr rfl⟩⟩

theorem witness_StepKeepsHeldInReset :
    let s : State := { State.reset with resetLow := true, pending := [.lease .p0 1 3] }
    HeldInReset s ∧ s.resetLow = true := ⟨fun _ => rfl, rfl⟩

/-- A step of each disjunct, and the boundary at work at the first. -/
theorem witness_EpochAdvancesOnlyAtClearedEvaluation :
    (step { ready with pending := [.bundleEvaluation 0] } = .next (after ready (.bundleEvaluation 0))
      ∧ ((after ready (.bundleEvaluation 0)).group 3).epoch ≠ (ready.group 3).epoch
      ∧ AtWork { ready with pending := [.bundleEvaluation 0] } (work 0 1 0 0) ∧ inSet (ready.bundle 0) 3 = true)
    ∧ step { ready with pending := [.powerUp] } = .next (after ready .powerUp)
    ∧ ((after ready .powerUp).group 3).epoch ≠ (ready.group 3).epoch :=
  ⟨⟨step_after (s := ready) rfl (by decide +kernel), by decide +kernel, atWork_ready _, by decide +kernel⟩,
    step_after (s := ready) rfl (by decide +kernel), by decide +kernel⟩

theorem witness_ActiveWordsChangeOnlyByCommit :
    step { ready with pending := [.bundleEvaluation 0] } = .next (after ready (.bundleEvaluation 0))
    ∧ ({ ready with pending := [.bundleEvaluation 0] } : State).entry 10 = some (wordEntry 3 7 (some [8]) none)
    ∧ (after ready (.bundleEvaluation 0)).entry 10 =
        some (.value { group := 3, width := 1, active := [8], staged := none, epoch := 5, writers := ⟨true, false, true, true⟩, limits := none })
    ∧ [(8 : Word)] ≠ [7] :=
  ⟨step_after (s := ready) rfl (by decide +kernel), by decide +kernel, by decide +kernel, by decide⟩

theorem witness_LayoutFixedOutsideConfig :
    heldReady.pending = .seal .p0 1 3 0 1 :: [] ∧ heldReady.mode ≠ .config ∧ (Instr.seal .p0 1 3 0 1 : Instr) ≠ .resetAssert
    ∧ (Instr.seal .p0 1 3 0 1 : Instr) ≠ .powerUp ∧ step heldReady = .next (after held (.seal .p0 1 3 0 1)) :=
  ⟨rfl, by decide, by decide, by decide, witness_StepKeeps.2⟩

/-- A command of another port, another port's RESET_DEVICE, and a lapse. -/
theorem witness_PortsOwnTheirBuffersAndSubscriptions :
    (heldReady.pending = .seal .p0 1 3 0 1 :: [] ∧ portOf (.seal .p0 1 3 0 1) ≠ some .p1
      ∧ step heldReady = .next (after held (.seal .p0 1 3 0 1)))
    ∧ (portOf (.resetDevice .p0 1) ≠ some .p1
      ∧ step { claimant with pending := [.resetDevice .p0 1] } = .next (after claimant (.resetDevice .p0 1)))
    ∧ portOf (.ackStep 3) ≠ some .p2
    ∧ ((after { held with boundaries := [work 0 0 0 8] } (.ackStep 3)).group 3).subscriptions.get .p2 = .lapsed :=
  ⟨⟨rfl, by decide, witness_StepKeeps.2⟩, ⟨by decide, step_after (s := claimant) rfl (by decide +kernel)⟩, by decide, by decide +kernel⟩

end Sys2Proof.Tests
end

section
namespace Sys2Proof.Proofs

open Sys2Proof Sys2Proof.Machine

/-! ## The changes of which every step is made

`Change` lists the changes that a part can undergo while its layout stands, but for a commit; `Setup` those of the layout
and the device reset. A step is a run of changes, or one setup between such runs, or a run of changes and then commits
(`step_happening`). A law of the part needs then a look at each kind of change only, not at each command. -/

/-- A group record replaced outside a commit: its epoch and parameters stay, it stays legal, and it is not made IDLE. -/
structure Regroup (mode : Mode) (r r' : Group) : Prop where
  epoch : r'.epoch = r.epoch
  staleLimit : r'.staleLimit = r.staleLimit
  ackDeadline : r'.ackDeadline = r.ackDeadline
  patienceLimit : r'.patienceLimit = r.patienceLimit
  legal : GroupLegal mode r → GroupLegal mode r'
  opened : r.state ≠ .idle → r'.state ≠ .idle

/-- Frame timing with its source and period kept and the flywheel count within its bound (R122, R130). -/
structure Retime (old new : Timing) : Prop where
  source : new.source = old.source
  period : new.period = old.period
  flywheel : old.flywheel.toNat ≤ 3 → new.flywheel.toNat ≤ 3

/-- The changes of a part whose layout stands, but for a commit. -/
inductive Change (s : State) : State → Prop
  | aside (claim : Option Port) (committedLast : GroupSet) (commitPulse : Option Nat) (ports : PerPort PortUnit)
      (resetLow : Bool) (now : Nat) (pending : List Instr) :
      Change s { s with
        claim := claim, committedLast := committedLast, commitPulse := commitPulse, ports := ports
        resetLow := resetLow, now := now, pending := pending }
  | works (boundaries : List BoundaryWork)
      (kept : ∀ w ∈ boundaries, ∃ v ∈ s.boundaries, w.kind = v.kind ∧ w.void = v.void) :
      Change s { s with boundaries := boundaries }
  | regroup (g : GroupId) (r : Group) (kept : Regroup s.mode (s.group g) r) : Change s (s.setGroup g r)
  | discard (g : GroupId) : Change s (discardSet g s)
  | stage (i : Byte) (v : ValueEntry) (words : List Word) (here : s.entry i = some (.value v))
      (shaped : words.length = v.width)
      (admitted : ∀ l, v.limits = some l → l.kind.le l.min l.max = true → ∀ w ∈ words, l.within w = true)
      (opened : (s.group v.group).state ≠ .idle) :
      Change s (s.setEntry i (some (.value { v with staged := some words })))
  | unstage (i : Byte) : Change s (s.setEntry i (clearStaged (s.entry i)))
  | start (takenAt : Nat) (config : s.mode = .config) (sound : ∀ i f, s.entry i = some (.fan f) → FanSound s f) :
      Change s { s with mode := .starting, toTiming := s.toTiming ++ [.start takenAt] }
  | enter (mode : Mode) (toMode : List TimingReport) (left : s.mode ≠ .config)
      (entered : mode = .running ∨ mode = .fault ∨ mode = .stopping ∧ ∀ w ∈ s.boundaries, w.void = true) :
      Change s { s with mode := mode, toMode := toMode }
  | enterConfig : Change s (enterConfig s)
  | void : Change s s.voidWork
  | handOn (kind : BoundaryKind) (frame : Half) (due : s.mode = .running ∨ kind.inRunning = false) :
      Change s (handOn kind frame s)
  | taken (r : TimingReport) (rest : List TimingReport) (next : s.toMode = r :: rest)
      (ignored : s.mode = .starting → .enterConfig ∉ s.toTiming → r = .frameLoss) :
      Change s { s with toMode := rest }
  | report (r : TimingReport) (timing : Timing) (kept : Retime s.timing timing) (runs : s.timing.state ≠ .stopped)
      (first : s.timing.state = .first → r = .boundary 0#16) :
      Change s { s with timing := timing, toMode := s.toMode ++ [r] }
  | retime (timing : Timing) (kept : Retime s.timing timing) (same : timing.state = s.timing.state) :
      Change s { s with timing := timing }
  | timingFirst (takenAt : Nat) (rest : List ModeMessage) (timing : Timing) (next : s.toTiming = .start takenAt :: rest)
      (kept : Retime s.timing timing) (now : timing.state = .first) :
      Change s { s with toTiming := rest, timing := timing }
  | timingStopped (rest : List ModeMessage) (timing : Timing) (next : s.toTiming = .enterConfig :: rest)
      (kept : Retime s.timing timing) (now : timing.state = .stopped) :
      Change s { s with toTiming := rest, toMode := [], timing := timing }

/-- An entry as DEFINE_ENTRY and DEFINE_FAN make it (R11, R12, R13). -/
structure Fresh (e : Entry) : Prop where
  shaped : EntryShaped e
  unstaged : ∀ v, e = .value v → v.staged = none ∧ v.epoch = 0#16
  limited : ∀ v l, e = .value v → v.limits = some l →
    l.kind.le l.min l.max = true ∧ ∀ w ∈ v.active, l.within w = true

/-- The changes of the layout, the parameters and the frame settings, in CONFIG, and the device reset. -/
inductive Setup (s : State) : State → Prop
  | define (i : Byte) (e : Entry) (config : s.mode = .config) (undefined : s.entry i = none) (fresh : Fresh e)
      (room : wordsTaken (some e) ≤ s.freeWords) :
      Setup s { s.setEntry i (some e) with freeWords := s.freeWords - wordsTaken (some e) }
  | delete (i : Byte) (config : s.mode = .config) :
      Setup s { s.setEntry i none with freeWords := s.freeWords + wordsTaken (s.entry i) }
  | parameters (g : GroupId) (staleLimit ackDeadline patienceLimit : Byte) (config : s.mode = .config) :
      Setup s (s.modifyGroup g fun r =>
        { r with staleLimit := staleLimit, ackDeadline := ackDeadline, patienceLimit := patienceLimit })
  | bundle (b : BundleId) (gs : List GroupId) (config : s.mode = .config) (nodup : gs.Nodup) (many : gs.length ≠ 1)
      (free : ∀ g ∈ gs, ∀ c, c ≠ b → inSet (s.bundle c) g = false) :
      Setup s (s.setBundle b (groupSetOf gs))
  | frame (source : FrameSource) (period : Word) (config : s.mode = .config) (low : 100 ≤ period.toNat)
      (high : period.toNat ≤ 1000000) :
      Setup s { s with timing := { s.timing with source := source, period := period } }
  | reset : Setup s (deviceReset s)

/-- One change after another. -/
abbrev Changes : State → State → Prop := Relation.ReflTransGen Change

/-- What one step can be, with the condition under which it may touch the layout. -/
inductive Happening (s : State) (layout : Prop) : State → Prop
  | changed {t : State} (run : Changes s t) : Happening s layout t
  | setUp {u v t : State} (allowed : layout) (before : Changes s u) (setup : Setup u v) (after : Changes v t) :
      Happening s layout t
  | committed {u : State} (frame : Half) (gs : List GroupId) (running : s.mode = .running) (before : Changes s u)
      (mode : u.mode = s.mode) (entries : u.entries = s.entries)
      (groups : ∀ g, (u.group g).state = (s.group g).state ∧ (u.group g).epoch = (s.group g).epoch)
      (nodup : gs.Nodup) (due : ∀ g ∈ gs, (u.group g).state = .sealed) :
      Happening s layout (gs.foldl (fun t g => commitGroup frame g t) u)

/-! ### Changes that touch no law -/

theorem Change.of_ports {s t : State} (h : t = { s with ports := t.ports }) : Change s t := by
  rw [h]
  exact .aside s.claim s.committedLast s.commitPulse t.ports s.resetLow s.now s.pending

theorem changes_ports {s t : State} (h : t = { s with ports := t.ports }) : Changes s t := .single (.of_ports h)

theorem changes_setPort (s : State) (p : Port) (u : PortUnit) : Changes s (s.setPort p u) := changes_ports rfl

theorem changes_notify (s : State) (p : Port) (n : Notice) : Changes s (s.notify p n) := changes_ports (notify_eq s p n)

theorem changes_notifyOptional (s : State) (p : Option Port) (n : Notice) : Changes s (s.notifyOptional p n) :=
  changes_ports (notifyOptional_eq s p n)

theorem changes_notifyEach (s : State) (ports : List Port) (n : Port → Notice) : Changes s (s.notifyEach ports n) :=
  changes_ports (notifyEach_eq s ports n)

theorem changes_now (s : State) (now : Nat) : Changes s { s with now := now } :=
  .single (.aside s.claim s.committedLast s.commitPulse s.ports s.resetLow now s.pending)

theorem changes_claim (s : State) (claim : Option Port) : Changes s { s with claim := claim } :=
  .single (.aside claim s.committedLast s.commitPulse s.ports s.resetLow s.now s.pending)

theorem changes_regroup {s : State} {g : GroupId} {r : Group} (h : Regroup s.mode (s.group g) r) :
    Changes s (s.setGroup g r) :=
  .single (.regroup g r h)

theorem changes_modifyGroup {s : State} {g : GroupId} {f : Group → Group} (h : Regroup s.mode (s.group g) (f (s.group g))) :
    Changes s (s.modifyGroup g f) :=
  changes_regroup h

/-- A fold of changes over a list. -/
theorem changes_foldl {α : Type} {f : State → α → State} (h : ∀ s a, Changes s (f s a)) (l : List α) (s : State) :
    Changes s (l.foldl f s) := by
  induction l generalizing s with
  | nil => exact .refl
  | cons a rest ih => exact (h s a).trans (ih (f s a))

theorem changes_takeCommand {p : Port} {c : Command} {tag : Byte} {L : Nat} {body : State → Reply} {s : State}
    (h : ∀ s, Changes s (body s).state) : Changes s (takeCommand p c tag L body s) :=
  takeCommand_keeps (changes_setPort _ _ _) (fun _ _ ht => ht.trans (changes_setPort _ _ _))
    ((changes_setPort _ _ _).trans (h _))

/-! ### The work in flight -/

theorem mem_modifyFirst {α : Type} {test : α → Bool} {f : α → α} {l : List α} {x : α} (h : x ∈ modifyFirst test f l) :
    ∃ y ∈ l, x = y ∨ x = f y := by
  induction l with
  | nil => cases h
  | cons y rest ih =>
    rw [modifyFirst] at h
    split at h
    · rcases List.mem_cons.mp h with rfl | h
      · exact ⟨y, List.mem_cons_self, .inr rfl⟩
      · exact ⟨x, List.mem_cons_of_mem _ h, .inl rfl⟩
    · rcases List.mem_cons.mp h with rfl | h
      · exact ⟨x, List.mem_cons_self, .inl rfl⟩
      · obtain ⟨z, hz, hx⟩ := ih h
        exact ⟨z, List.mem_cons_of_mem _ hz, hx⟩

/-- Boundaries changed in place, but for their kind and for being void. -/
theorem changes_modifyFirst {s : State} {test : BoundaryWork → Bool} {f : BoundaryWork → BoundaryWork}
    (hf : ∀ w, (f w).kind = w.kind ∧ (f w).void = w.void) :
    Changes s { s with boundaries := modifyFirst test f s.boundaries } := by
  refine .single (.works _ fun w hw => ?_)
  obtain ⟨v, hv, rfl | rfl⟩ := mem_modifyFirst hw
  · exact ⟨w, hv, rfl, rfl⟩
  · exact ⟨v, hv, hf v⟩

theorem changes_modifyCurrentWork {s : State} {f : BoundaryWork → BoundaryWork}
    (hf : ∀ w, (f w).kind = w.kind ∧ (f w).void = w.void) : Changes s (s.modifyCurrentWork f) :=
  changes_modifyFirst hf

theorem changes_dropFinished (s : State) : Changes s s.dropFinished :=
  .single (.works _ fun w hw => ⟨w, (List.mem_filter.mp hw).1, rfl, rfl⟩)

end Sys2Proof.Proofs
end

section
namespace Sys2Proof.Proofs

open Sys2Proof Sys2Proof.Machine

/-! ### Group records -/

/-- A record with another lessee, queue, counter, subscriptions or holdouts: the group's state and set stay (R23). -/
theorem Regroup.of_holders {mode : Mode} {r : Group} (lessee : Option Port) (waitQueue : List Port) (patience : Byte)
    (subscriptions : PerPort Subscription) (outstanding : PortSet) (ackAge : Byte)
    (held : r.state = .staging → r.lessee ≠ none → lessee ≠ none)
    (idle : mode = .config ∨ mode = .starting → r.lessee = none → r.waitQueue = [] → r.outstanding = PortSet.none →
      lessee = none ∧ waitQueue = [] ∧ outstanding = PortSet.none) :
    Regroup mode r { r with
      lessee := lessee, waitQueue := waitQueue, patience := patience, subscriptions := subscriptions
      outstanding := outstanding, ackAge := ackAge } where
  epoch := rfl
  staleLimit := rfl
  ackDeadline := rfl
  patienceLimit := rfl
  opened := id
  legal := fun ⟨quiet, staging, closed, cleared⟩ =>
    ⟨fun m =>
      have ⟨state, free, queue, nobody⟩ := quiet m
      ⟨state, idle m free queue nobody⟩,
      fun h => held h (staging h), closed, cleared⟩

theorem Regroup.of_patience {mode : Mode} {r : Group} (patience : Byte) : Regroup mode r { r with patience := patience } :=
  .of_holders r.lessee r.waitQueue patience r.subscriptions r.outstanding r.ackAge (fun _ => id) fun _ h q o => ⟨h, q, o⟩

/-- A queue or a lease taken while leases are given (R41). -/
theorem Regroup.of_lease {mode : Mode} {r : Group} (lessee : Option Port) (waitQueue : List Port) (patience : Byte)
    (held : r.state = .staging → r.lessee ≠ none → lessee ≠ none) (working : mode ≠ .config ∧ mode ≠ .starting) :
    Regroup mode r { r with lessee := lessee, waitQueue := waitQueue, patience := patience } :=
  .of_holders lessee waitQueue patience r.subscriptions r.outstanding r.ackAge held
    fun m => absurd m (not_or.mpr working)

/-- Holdouts taken out of the outstanding set (R104, R109, R114, R118). -/
theorem Regroup.of_outstanding {mode : Mode} {r : Group} (subscriptions : PerPort Subscription) (outstanding : PortSet)
    (fewer : ∀ p, outstanding.get p = true → r.outstanding.get p = true) :
    Regroup mode r { r with subscriptions := subscriptions, outstanding := outstanding } :=
  .of_holders r.lessee r.waitQueue r.patience subscriptions outstanding r.ackAge (fun _ => id) fun _ h q nobody =>
    ⟨h, q, PerPort.ext_get fun p => by
      have := fewer p
      rw [nobody] at this
      simpa using this⟩

/-- The set of a SEALED group waits: only the countdown falls, and the deferrals are counted (R81, R84). -/
theorem Regroup.of_sealed {mode : Mode} {r : Group} (countdown deferrals : Byte) (staleReported : Bool)
    (state : r.state = .sealed) (falls : countdown.toNat ≤ r.countdown.toNat) :
    Regroup mode r { r with countdown := countdown, deferrals := deferrals, staleReported := staleReported } where
  epoch := rfl
  staleLimit := rfl
  ackDeadline := rfl
  patienceLimit := rfl
  opened := id
  legal := fun ⟨quiet, staging, closed, _⟩ =>
    ⟨quiet, staging, fun h => ⟨(closed h).1, falls.trans (closed h).2⟩, fun h => absurd state h⟩

theorem toNat_lowerByte_le (c : Byte) : (lowerByte c).toNat ≤ c.toNat := by
  unfold lowerByte
  split
  · exact Nat.zero_le _
  · bv_omega

theorem changes_lowerCountdown (g : GroupId) (s : State) : Changes s (lowerCountdown g s) := by
  refine changes_modifyGroup ?_
  split
  · next h => exact .of_sealed _ _ _ h (toNat_lowerByte_le _)
  · exact .of_patience _

theorem changes_deferGroup {g : GroupId} {s : State} (h : (s.group g).state = .sealed) : Changes s (deferGroup g s) := by
  unfold deferGroup
  simp only
  split
  · exact (changes_regroup (.of_sealed _ _ _ h le_rfl)).trans (changes_notifyEach _ _ _)
  · exact changes_regroup (.of_sealed _ _ _ h le_rfl)

theorem changes_ageGroup (g : GroupId) (s : State) : Changes s (ageGroup g s) := by
  have lapse : ∀ t, Changes t (lapseGroup g t) := fun t =>
    ((changes_regroup (.of_outstanding _ _ (by simp))).trans (changes_notifyEach _ _ _)).trans (changes_notifyEach _ _ _)
  unfold ageGroup
  simp only
  split
  · exact .refl
  · have aged : Changes s (s.setGroup g { s.group g with ackAge := (s.group g).ackAge + 1#8 }) :=
      changes_regroup (.of_holders _ _ _ _ _ _ (fun _ => id) fun _ h q o => ⟨h, q, o⟩)
    split
    · exact aged.trans (lapse _)
    · exact aged

/-! ### Leases -/

theorem changes_freeLease {g : GroupId} {event : FreeingEvent} {s : State} (h : (s.group g).state ≠ .staging) :
    Changes s (freeLease g event s) := by
  have passed : ∀ lessee waitQueue,
      ((s.group g).waitQueue = [] → lessee = none ∧ waitQueue = []) →
      Changes s (s.setGroup g { s.group g with lessee := lessee, waitQueue := waitQueue, patience := 0#8 }) :=
    fun lessee waitQueue empty => changes_regroup (.of_holders lessee waitQueue _ _ _ _ (fun m => absurd m h)
      fun _ _ q o => ⟨(empty q).1, (empty q).2, o⟩)
  cases hq : (s.group g).waitQueue with
  | nil =>
    rw [freeLease_nil hq]
    exact passed none (s.group g).waitQueue fun q => ⟨rfl, q⟩
  | cons next rest =>
    rw [freeLease_cons hq]
    exact (passed (some next) rest fun q => by simp [hq] at q).trans (changes_notify _ _ _)

theorem changes_giveUpLease (g : GroupId) (event : FreeingEvent) (s : State) : Changes s (giveUpLease g event s) := by
  unfold giveUpLease
  split
  · exact (Relation.ReflTransGen.single (.discard g)).trans (changes_freeLease (by simp [group_discardSet]))
  · next h => exact changes_freeLease h

theorem changes_advancePatience (g : GroupId) (s : State) : Changes s (advancePatience g s) := by
  have revoke : ∀ t, Changes t (revokeLease g t) := by
    intro t
    unfold revokeLease
    simp only
    split
    · exact ((changes_notifyOptional _ _ _).trans (changes_notifyOptional _ _ _)).trans (changes_giveUpLease _ _ _)
    · exact (changes_notifyOptional _ _ _).trans (changes_giveUpLease _ _ _)
  unfold advancePatience
  simp only
  split
  · split
    · exact (changes_regroup (.of_patience _)).trans (revoke _)
    · exact changes_regroup (.of_patience _)
  · exact .refl

theorem changes_leaveGroup (p : Port) (s : State) (g : GroupId) : Changes s (leaveGroup p s g) := by
  have left : Changes s (s.modifyGroup g fun r => { r with waitQueue := r.waitQueue.filter (· != p) }) :=
    changes_modifyGroup (.of_holders _ _ _ _ _ _ (fun _ => id) fun _ h q o => ⟨h, by simp [q], o⟩)
  have unsubscribed : ∀ t : State, Changes t (t.modifyGroup g fun r =>
      { r with outstanding := r.outstanding.set p false, subscriptions := r.subscriptions.set p .none }) := fun t =>
    changes_modifyGroup (.of_outstanding _ _ fun q => by rw [PerPort.get_set]; split <;> simp)
  unfold leaveGroup
  simp only
  split
  · exact (left.trans (changes_giveUpLease _ _ _)).trans (unsubscribed _)
  · exact left.trans (unsubscribed _)

theorem changes_leaveReply (p : Port) (s : State) : Changes s (leaveReply p s).state :=
  ((changes_foldl (changes_leaveGroup p) allGroups s).trans (changes_claim _ _)).trans (changes_setPort _ _ _)

theorem changes_leaseReply (p : Port) (group : Byte) (s : State) : Changes s (leaseReply p group s).state := by
  unfold leaseReply
  split
  case h_1 | h_2 | h_3 => exact .refl
  all_goals
    rename_i mode
    split
    · exact .refl
    · rename_i g _
      have working : s.mode ≠ .config ∧ s.mode ≠ .starting := by simp [mode]
      unfold leaseGroup
      simp only
      split
      · exact changes_regroup (.of_lease _ _ _ (by simp) working)
      · split
        · exact .refl
        · exact changes_regroup (.of_lease _ _ _ (fun _ => id) working)

end Sys2Proof.Proofs
end

section
namespace Sys2Proof.Proofs

open Sys2Proof Sys2Proof.Machine

theorem changes_releaseReply (p : Port) (group : Byte) (s : State) : Changes s (releaseReply p group s).state := by
  unfold releaseReply
  split
  case h_1 | h_2 => exact .refl
  all_goals
    rename_i mode
    split
    · exact .refl
    · unfold releaseGroup
      simp only
      split
      · exact changes_giveUpLease _ _ _
      · split
        · exact changes_regroup (.of_lease _ _ _ (fun _ => id) (by simp [mode]))
        · exact .refl

/-! ### Subscriptions and acknowledgments -/

theorem changes_subscribeReply (p : Port) (group mode : Byte) (s : State) :
    Changes s (subscribeReply p group mode s).state := by
  unfold subscribeReply
  split
  · exact .refl
  · split
    · exact .refl
    · refine changes_regroup (.of_outstanding _ _ fun q => ?_)
      rw [PerPort.get_set]
      split
      · next h => subst h; simp +contextual
      · exact id

theorem changes_ackReply (p : Port) (group : Byte) (epoch : Half) (s : State) :
    Changes s (ackReply p group epoch s).state := by
  unfold ackReply
  split
  case h_1 | h_2 => exact .refl
  all_goals
    split
    · exact .refl
    · simp only
      split
      · exact .refl
      · split
        · exact .refl
        · exact changes_regroup (.of_outstanding _ _ fun q => by rw [PerPort.get_set]; split <;> simp)

/-! ### Staging -/

theorem changes_withLease {p : Port} {g : GroupId} {body : State → Reply} {s : State}
    (h : (s.group g).lessee = some p → Changes s (body s).state) : Changes s (withLease p g body s).state := by
  unfold withLease
  split
  · next lease => exact h lease
  · exact .refl

/-- A set opened by the lessee (R58). -/
theorem changes_openStaging {p : Port} {g : GroupId} {s : State} (working : s.mode ≠ .config ∧ s.mode ≠ .starting)
    (lease : (s.group g).lessee = some p) (unsealed : (s.group g).state ≠ .sealed) : Changes s (openStaging g s) :=
  changes_modifyGroup
    { epoch := rfl, staleLimit := rfl, ackDeadline := rfl, patienceLimit := rfl, opened := fun _ => by simp
      legal := fun ⟨_, _, _, cleared⟩ =>
        ⟨fun m => absurd m (not_or.mpr working), fun _ => by simp [showProgress, lease], by simp,
          fun _ => cleared unsealed⟩ }

theorem within_clamp {l : Limits} {w : Word} (ordered : l.kind.le l.min l.max = true) : l.within (l.clamp w) = true := by
  have refl : ∀ k (a : Word), LimitKind.le k a a = true := fun k a => by cases k <;> simp [LimitKind.le]
  unfold Limits.clamp
  cases hmin : l.kind.le l.min w with
  | false => simp [Limits.within, refl, ordered]
  | true => cases hmax : l.kind.le w l.max <;> simp [Limits.within, refl, ordered, hmin, hmax]

/-- A word that limits with min not greater than max let pass is within them (R5). -/
theorem within_of_admitWord {limits : Option Limits} {w x : Word} (h : admitWord limits w = some x) (l : Limits)
    (hl : limits = some l) (ordered : l.kind.le l.min l.max = true) : l.within x = true := by
  subst hl
  unfold admitWord at h
  simp only at h
  split at h
  · next inside => cases h; exact inside
  · split at h
    · cases h
    · cases h; exact within_clamp ordered

/-- Words that limits let pass, one by one (R5, R19). -/
theorem admitWords_eq_some {limits : Option Limits} {words staged : List Word} (h : admitWords limits words = some staged) :
    staged.length = words.length ∧ ∀ x ∈ staged, ∃ w ∈ words, admitWord limits w = some x := by
  induction words generalizing staged with
  | nil => cases h; simp
  | cons w rest ih =>
    rw [admitWords] at h
    split at h
    · rename_i w' rest' hw hrest
      cases h
      obtain ⟨len, each⟩ := ih hrest
      refine ⟨by simp [len], fun x hx => ?_⟩
      rcases List.mem_cons.mp hx with rfl | hx
      · exact ⟨w, by simp, hw⟩
      · obtain ⟨y, hy, hadmit⟩ := each x hx
        exact ⟨y, by simp [hy], hadmit⟩
    · cases h

theorem changes_stageValue {p : Port} {index : Byte} {words : List Word} {v : ValueEntry} {s : State}
    (here : s.entry index = some (.value v)) (working : s.mode ≠ .config ∧ s.mode ≠ .starting)
    (lease : (s.group v.group).lessee = some p) (unsealed : (s.group v.group).state ≠ .sealed) :
    Changes s (stageValue p index words v s).state := by
  unfold stageValue
  split
  · exact .refl
  · next width =>
    split
    · exact .refl
    · split
      · exact .refl
      · rename_i staged admitted
        obtain ⟨len, each⟩ := admitWords_eq_some admitted
        refine (changes_openStaging working lease unsealed).tail (.stage index v staged here ?_ ?_ ?_)
        · rw [len]; exact not_not.mp width
        · intro l hl ordered x hx
          obtain ⟨w, -, hw⟩ := each x hx
          exact within_of_admitWord hw l hl ordered
        · simp [openStaging]

/-- A word that may be staged at an index: a VALUE entry of width 1, its group STAGING, whose limits let the word pass. -/
def Stageable (s : State) (x : Byte × Word) : Prop :=
  ∃ v, s.entry x.1 = some (.value v) ∧ v.width = 1 ∧ (s.group v.group).state = .staging
    ∧ ∀ l, v.limits = some l → l.kind.le l.min l.max = true → l.within x.2 = true

theorem changes_writeTargets {staged : List (Byte × Word)} {s : State} (h : ∀ x ∈ staged, Stageable s x) :
    Changes s (writeTargets s staged) := by
  induction staged generalizing s with
  | nil => exact .refl
  | cons x rest ih =>
    obtain ⟨⟨v, here, width, opened, admitted⟩, others⟩ := List.forall_mem_cons.mp h
    have first : Change s (s.setEntry x.1 (writeStaged [x.2] (s.entry x.1))) := by
      rw [here]
      exact .stage x.1 v [x.2] here width.symm (by simpa using admitted) (by simp [opened])
    refine .head first (ih fun y hy => ?_)
    obtain ⟨u, hu, uwidth, uopened, uadmitted⟩ := others y hy
    by_cases same : x.1 = y.1
    · exact ⟨{ u with staged := some [x.2] }, by rw [← same] at hu; simp [same.symm, hu, writeStaged], uwidth, uopened, uadmitted⟩
    · exact ⟨u, by rw [entry_setEntry, if_neg same, hu], uwidth, uopened, uadmitted⟩

/-- The targets collected of a FAN are what R14 asks of them. -/
theorem collectTargets_eq_some {s : State} {g : GroupId} {is : List Byte} {targets : List (Byte × ValueEntry)}
    (h : collectTargets s g is = some targets) :
    targets.map (·.1) = is ∧ ∀ x ∈ targets, s.entry x.1 = some (.value x.2) ∧ x.2.width = 1 ∧ x.2.group = g := by
  induction is generalizing targets with
  | nil => cases h; simp
  | cons i rest ih =>
    rw [collectTargets] at h
    split at h
    · rename_i v here
      split at h
      · next shaped =>
        obtain ⟨others, hothers, rfl⟩ := Option.map_eq_some_iff.mp h
        obtain ⟨indices, each⟩ := ih hothers
        exact ⟨by simp [indices], List.forall_mem_cons.mpr ⟨⟨here, shaped⟩, each⟩⟩
      · cases h
    · cases h

/-- The words admitted into the targets of a FAN, target by target (R20). -/
theorem admitTargets_eq_ok {p : Port} {w : Word} {targets : List (Byte × ValueEntry)} {staged : List (Byte × Word)}
    (h : admitTargets p w targets = .ok staged) :
    ∀ x ∈ staged, ∃ v, (x.1, v) ∈ targets ∧ admitWord v.limits w = some x.2 := by
  induction targets generalizing staged with
  | nil => cases h; simp
  | cons t rest ih =>
    obtain ⟨i, v⟩ := t
    rw [admitTargets] at h
    split at h
    · cases h
    · split at h
      · cases h
      · rename_i w' hw
        split at h
        · rename_i others hothers
          cases h
          refine List.forall_mem_cons.mpr ⟨⟨v, by simp, hw⟩, fun x hx => ?_⟩
          obtain ⟨u, hu, hadmit⟩ := ih hothers x hx
          exact ⟨u, by simp [hu], hadmit⟩
        · cases h

/-- Opening the set after the words are written is opening it before. -/
theorem openStaging_writeTargets (g : GroupId) (staged : List (Byte × Word)) (s : State) :
    openStaging g (writeTargets s staged) = writeTargets (openStaging g s) staged := by
  induction staged generalizing s with
  | nil => rfl
  | cons x rest ih => exact ih (s.setEntry x.1 (writeStaged [x.2] (s.entry x.1)))

theorem changes_stageFan {p : Port} {index : Byte} {words : List Word} {f : FanEntry} {s : State}
    (working : s.mode ≠ .config ∧ s.mode ≠ .starting)
    (lease : (s.group f.group).lessee = some p) (unsealed : (s.group f.group).state ≠ .sealed) :
    Changes s (stageFan p index words f s).state := by
  unfold stageFan
  split
  · rename_i w
    split
    · exact .refl
    · split
      · exact .refl
      · rename_i targets sound
        split
        · exact .refl
        · rename_i staged admitted
          simp only [answer]
          rw [openStaging_writeTargets]
          refine (changes_openStaging working lease unsealed).trans (changes_writeTargets fun x hx => ?_)
          obtain ⟨v, hv, hadmit⟩ := admitTargets_eq_ok admitted x hx
          obtain ⟨here, width, (group : v.group = f.group)⟩ := (collectTargets_eq_some sound).2 _ hv
          exact ⟨v, here, width, by simp [group, openStaging], fun l => within_of_admitWord hadmit l⟩
  · exact .refl

theorem changes_stageReply (p : Port) (index : Byte) (words : List Word) (s : State) :
    Changes s (stageReply p index words s).state := by
  unfold stageReply
  split
  case h_1 | h_2 | h_3 => exact .refl
  all_goals
    rename_i mode
    have working : s.mode ≠ .config ∧ s.mode ≠ .starting := by simp [mode]
    split
    · exact .refl
    · rename_i e here
      refine changes_withLease fun lease => ?_
      split
      · exact .refl
      all_goals
        rename_i state
        split
        · exact changes_stageValue here working lease (by simp [Entry.group] at state; simp [state])
        · exact changes_stageFan working lease (by simp [Entry.group] at state; simp [state])

theorem changes_unstageReply (p : Port) (index : Byte) (s : State) : Changes s (unstageReply p index s).state := by
  have progress : ∀ (t : State) g, Changes t (t.modifyGroup g showProgress) := fun t g =>
    changes_modifyGroup (.of_patience _)
  unfold unstageReply
  split
  case h_1 | h_2 | h_3 => exact .refl
  all_goals
    split
    · exact .refl
    · refine changes_withLease fun _ => ?_
      split
      · exact .refl
      · exact progress _ _
      · split
        · exact (changes_foldl (fun t i => .single (.unstage i)) _ s).trans (progress _ _)
        · exact .refl

/-! ### Sealing -/

theorem changes_sealReply (p : Port) (group delay marked : Byte) (s : State) :
    Changes s (sealReply p group delay marked s).state := by
  unfold sealReply
  split
  case h_1 | h_2 | h_3 => exact .refl
  all_goals
    rename_i mode
    split
    · rename_i g m _ _
      split
      · exact .refl
      · next bound =>
        refine changes_withLease fun lease => ?_
        split
        · exact .refl
        all_goals
          refine changes_modifyGroup
            { epoch := rfl, staleLimit := rfl, ackDeadline := rfl, patienceLimit := rfl
              opened := fun _ => by simp [sealedRecord]
              legal := fun _ => ⟨by simp [mode], by simp [sealedRecord], fun _ => ⟨by simp [sealedRecord], ?_⟩,
                by simp [sealedRecord]⟩ }
          simp only [sealedRecord]
          bv_omega
    · exact .refl

theorem changes_unsealReply (p : Port) (group : Byte) (s : State) : Changes s (unsealReply p group s).state := by
  unfold unsealReply
  split
  case h_1 | h_2 | h_3 => exact .refl
  all_goals
    rename_i mode
    split
    · exact .refl
    · refine changes_withLease fun lease => ?_
      simp only
      split
      · exact changes_regroup
          { epoch := rfl, staleLimit := rfl, ackDeadline := rfl, patienceLimit := rfl, opened := fun _ => by simp
            legal := fun _ => ⟨by simp [mode], by simp [clearSealed, showProgress, lease], by simp, by simp [clearSealed]⟩ }
      · exact .refl
      · exact .refl

theorem changes_readStagedReply (p : Port) (index : Byte) (s : State) : Changes s (readStagedReply p index s).state := by
  unfold readStagedReply
  split
  case h_1 | h_2 => exact .refl
  all_goals
    split
    · exact .refl
    · refine changes_withLease fun _ => ?_
      split
      · exact .refl
      · split <;> exact .refl

end Sys2Proof.Proofs
end

section
namespace Sys2Proof.Proofs

open Sys2Proof Sys2Proof.Machine

/-! ### Sessions, notices and the claim -/

theorem changes_joinReply (p : Port) (attention : Byte) (s : State) : Changes s (joinReply p attention s).state := by
  unfold joinReply
  split
  · exact .refl
  · simp only
    split
    · exact .refl
    · exact changes_setPort _ _ _

theorem changes_fetchReply (p : Port) (n : Byte) (s : State) : Changes s (fetchReply p n s).state := by
  unfold fetchReply
  split
  · exact .refl
  · exact changes_setPort _ _ _

theorem changes_claimReply (p : Port) (s : State) : Changes s (claimReply p s).state := by
  unfold claimReply
  split
  · exact .refl
  · split
    · exact changes_claim _ _
    · exact .refl

theorem changes_releaseClaimReply (p : Port) (s : State) : Changes s (releaseClaimReply p s).state := by
  unfold releaseClaimReply
  split
  · exact .refl
  · split
    · exact changes_claim _ _
    · exact .refl

/-! ### Reads -/

theorem state_groupStatusReply (p : Port) (group : Byte) (s : State) : (groupStatusReply p group s).state = s := by
  unfold groupStatusReply
  split <;> rfl

theorem state_readReply (index : Byte) (s : State) : (readReply index s).state = s := by
  unfold readReply
  split <;> rfl

theorem state_readSetReply (indices : List Byte) (s : State) : (readSetReply indices s).state = s := by
  unfold readSetReply
  split <;> rfl

/-! ### Modes -/

/-- A change of mode within a run, with the report that brought it about taken (R125, R133, R149). -/
theorem changes_changeMode {new : Mode} {s : State} (rest : List TimingReport) (left : s.mode ≠ .config)
    (entered : new = .running ∨ new = .fault ∨ new = .stopping ∧ ∀ w ∈ s.boundaries, w.void = true) :
    Changes s (changeMode new { s with toMode := rest }) := by
  refine .head (.enter new rest left entered) (changes_ports ?_)
  rw [changeMode_eq]

theorem mem_allIndices (i : Byte) : i ∈ allIndices :=
  List.mem_map.mpr ⟨i.toNat, List.mem_range.mpr i.isLt, by simp⟩

/-- No index is found unsound just when every FAN is sound (R14). -/
theorem firstUnsound_eq_none (s : State) :
    firstUnsound s = none ↔ ∀ i f, s.entry i = some (.fan f) → FanSound s f := by
  have each : ∀ i, soundEntry s (s.entry i) = true ↔ ∀ f, s.entry i = some (.fan f) → FanSound s f := by
    intro i
    cases he : s.entry i with
    | none => simp [soundEntry]
    | some e =>
      cases e with
      | value v => simp [soundEntry]
      | fan f => rw [soundEntry_fan]; simp
  simp [firstUnsound, each, mem_allIndices]

theorem changes_startBody {s : State} (config : s.mode = .config) : Changes s (startBody s).state := by
  unfold startBody
  split
  · exact .refl
  · rename_i sound
    refine (changes_claim s none).trans (.head (.start s.now config ((firstUnsound_eq_none s).mp sound)) (changes_ports ?_))
    simp only [answer, tellTiming]
    rw [changeMode_eq]

theorem changes_stopReply (s : State) : Changes s (stopReply s).state := by
  unfold stopReply
  split
  · exact .refl
  · exact .refl
  · next mode =>
    have voided : ∀ w ∈ s.voidWork.boundaries, w.void = true := by simp [State.voidWork]
    exact .head .void (changes_changeMode s.voidWork.toMode (by simp [mode]) (.inr (.inr ⟨rfl, voided⟩)))
  · exact .single .enterConfig
  · exact .single .enterConfig

theorem changes_resumeReply (s : State) : Changes s (resumeReply s).state := by
  unfold resumeReply
  split
  · exact .single (.retime _ ⟨rfl, rfl, id⟩ rfl)
  all_goals exact .refl

/-- A boundary taken in the mode it finds (R125). -/
theorem changes_takeBoundary {s : State} {frame : Half} {rest : List TimingReport}
    (next : s.toMode = .boundary frame :: rest) : Changes s (takeBoundary frame { s with toMode := rest }) := by
  unfold takeBoundary
  split
  · next unheard =>
    exact .single (.taken _ _ next fun _ heard => absurd (stopUnheard_eq_true.mp unheard) heard)
  · split
    · next mode => exact .single (.taken _ _ next fun m => by simp [show s.mode = _ from mode] at m)
    · next mode =>
      exact (changes_changeMode rest (by simp [show s.mode = _ from mode]) (.inl rfl)).tail (.handOn _ _ (.inr rfl))
    · next mode =>
      exact .head (.taken _ _ next fun m => by simp [show s.mode = _ from mode] at m) (.single (.handOn _ _ (.inl mode)))
    · next mode =>
      refine (changes_changeMode rest (by simp [show s.mode = _ from mode]) (.inl rfl)).tail (.handOn _ _ (.inl ?_))
      rw [changeMode_eq]
    · next mode =>
      exact .head (.taken _ _ next fun m => by simp [show s.mode = _ from mode] at m)
        (.head .enterConfig (.single (.handOn _ _ (.inr rfl))))

/-- A frame loss taken in the mode it finds (R133). -/
theorem changes_takeFrameLoss {s : State} {rest : List TimingReport} (next : s.toMode = .frameLoss :: rest) :
    Changes s (takeFrameLoss { s with toMode := rest }) := by
  have taken : Change s { s with toMode := rest } := .taken _ _ next fun _ _ => rfl
  unfold takeFrameLoss
  split
  · exact .single taken
  · split
    · next mode => exact changes_changeMode rest (by simp [show s.mode = _ from mode]) (.inr (.inl rfl))
    · exact .head taken (.single .enterConfig)
    all_goals exact .single taken

/-! ### Frame timing -/

/-- A boundary produced by a unit that runs: in FIRST its frame number is 0 (R125, R127). -/
theorem changes_produceBoundary {s : State} (time : Nat) (frame : Half) (substitute : Option Byte) (timing : Timing)
    (kept : Retime s.timing timing) (runs : s.timing.state ≠ .stopped) (first : s.timing.state = .first → frame = 0#16) :
    Changes s (produceBoundary time frame substitute { s with timing := timing }) := by
  rw [produceBoundary_eq]
  exact .head
    (.report (.boundary frame) { timing with state := .tracking, lastBoundary := some time, frameNumber := frame }
      ⟨kept.source, kept.period, kept.flywheel⟩ runs fun h => by rw [first h])
    (.single (.aside s.claim s.committedLast s.commitPulse _ s.resetLow (max s.now time) s.pending))

theorem Retime.refl (t : Timing) : Retime t t := ⟨rfl, rfl, id⟩

theorem changes_takeEdge (time : Nat) (s : State) : Changes s (takeEdge time s) := by
  unfold takeEdge
  split
  · next state _ => exact changes_produceBoundary time 0#16 none s.timing (.refl _) (by simp [state]) fun _ => rfl
  · next state _ =>
    split
    · unfold judgeEdge
      split
      · exact .head (.retime { s.timing with earlySync := raiseHalf s.timing.earlySync } ⟨rfl, rfl, id⟩ rfl) (changes_now _ _)
      · split
        · exact changes_produceBoundary _ _ _ _ ⟨rfl, rfl, fun _ => by simp⟩ (by simp [state]) (by simp [state])
        · exact .refl
    · exact changes_now _ _
  · next state =>
    split
    · exact changes_produceBoundary _ _ _ _ ⟨rfl, rfl, fun _ => by simp⟩ (by simp [state]) (by simp [state])
    · exact changes_now _ _
  all_goals exact changes_now _ _

theorem changes_expireWindow {last : Nat} {s : State} (tracking : s.timing.state = .tracking) :
    Changes s (expireWindow last s) := by
  unfold expireWindow
  simp only
  split
  · next count =>
    refine changes_produceBoundary _ _ _ _ ⟨rfl, rfl, fun _ => ?_⟩ (by simp [tracking]) (by simp [tracking])
    simp only [Config.flywheelLimit] at count ⊢
    bv_omega
  · exact .head (.report .frameLoss { s.timing with state := .lost } ⟨rfl, rfl, id⟩ (by simp [tracking]) (by simp [tracking]))
      (changes_now _ _)

end Sys2Proof.Proofs
end

section
namespace Sys2Proof.Proofs

open Sys2Proof Sys2Proof.Machine

/-! ### The commit unit -/

theorem changes_foldl_deferGroup {gs : List GroupId} {s : State} (h : ∀ g ∈ gs, (s.group g).state = .sealed) :
    Changes s (gs.foldl (fun t g => deferGroup g t) s) := by
  induction gs generalizing s with
  | nil => exact .refl
  | cons g rest ih =>
    obtain ⟨first, others⟩ := List.forall_mem_cons.mp h
    refine (changes_deferGroup first).trans (ih fun k hk => ?_)
    rw [group_deferGroup]
    split
    · exact first
    · exact others k hk

/-- The countdown steps of some groups touch no state and no epoch, and nothing but groups. -/
theorem foldl_lowerCountdown (gs : List GroupId) (s : State) :
    gs.foldl (fun t g => lowerCountdown g t) s =
        { s with groups := (gs.foldl (fun t g => lowerCountdown g t) s).groups }
      ∧ ∀ h, ((gs.foldl (fun t g => lowerCountdown g t) s).group h).state = (s.group h).state
          ∧ ((gs.foldl (fun t g => lowerCountdown g t) s).group h).epoch = (s.group h).epoch := by
  induction gs generalizing s with
  | nil => exact ⟨rfl, fun _ => ⟨rfl, rfl⟩⟩
  | cons g rest ih =>
    obtain ⟨eq, same⟩ := ih (lowerCountdown g s)
    refine ⟨by rw [List.foldl_cons, eq]; rfl, fun h => ?_⟩
    rw [List.foldl_cons, (same h).1, (same h).2, group_lowerCountdown]
    split
    · next hg => subst hg; split <;> exact ⟨rfl, rfl⟩
    · exact ⟨rfl, rfl⟩

theorem sealed_of_sealedDue {r : Group} (h : sealedDue r = true) : r.state = .sealed := by
  simp [sealedDue] at h
  exact h.1

/-- An evaluation: the countdowns, then the commit of SEALED groups, or deferrals (R80 to R90). -/
theorem happening_evaluateGroup {s u : State} {layout : Prop} {g : GroupId} (frame : Half) (before : Changes s u)
    (running : s.mode = .running) (mode : u.mode = s.mode) (entries : u.entries = s.entries)
    (groups : ∀ g, u.group g = s.group g) : Happening s layout (evaluateGroup frame g u) := by
  obtain ⟨-, same⟩ := foldl_lowerCountdown [g] u
  have lowered : Changes s (lowerCountdown g u) := before.trans (changes_lowerCountdown g u)
  unfold evaluateGroup
  simp only
  split
  · next due =>
    split
    · exact .committed frame [g] running lowered mode entries
        (fun h => by rw [← groups h]; exact same h) (by simp)
        (by simpa using sealed_of_sealedDue due)
    · exact .changed (lowered.trans (changes_deferGroup (sealed_of_sealedDue due)))
  · exact .changed lowered

theorem happening_evaluateBundle {s u : State} {layout : Prop} {b : BundleId} (frame : Half) (before : Changes s u)
    (running : s.mode = .running) (mode : u.mode = s.mode) (entries : u.entries = s.entries)
    (groups : ∀ g, u.group g = s.group g) : Happening s layout (evaluateBundle frame b u) := by
  obtain ⟨eq, same⟩ := foldl_lowerCountdown (members (u.bundle b)) u
  have lowered := before.trans (changes_foldl (fun t g => changes_lowerCountdown g t) (members (u.bundle b)) u)
  unfold evaluateBundle
  simp only
  split
  · refine .committed frame _ running lowered ?_ ?_ (fun h => by rw [← groups h]; exact same h)
      ((nodup_members _).filter _) fun g hg => ?_
    · rw [eq]; exact mode
    · rw [eq]; exact entries
    · simpa using (List.mem_filter.mp hg).2
  · exact .changed (lowered.trans (changes_foldl_deferGroup fun g hg =>
      sealed_of_sealedDue (List.mem_filter.mp hg).2))

theorem happening_groupEvaluation (g : GroupId) (s : State) {layout : Prop} :
    ∃ t, execGroupEvaluation g s = .next t ∧ Happening s layout t := by
  refine ⟨_, rfl, ?_⟩
  split
  · exact .changed .refl
  · rename_i w _
    split
    · have taken : Changes s (s.modifyCurrentWork fun w => { w with groupEvals := dropFrom w.groupEvals g }) :=
        changes_modifyCurrentWork fun _ => ⟨rfl, rfl⟩
      simp only
      split
      · next acts => exact happening_evaluateGroup w.frame taken (actsAt_eq_true.mp acts).1 rfl rfl fun _ => rfl
      · exact .changed taken
    · exact .changed .refl

theorem happening_bundleEvaluation (b : BundleId) (s : State) {layout : Prop} :
    ∃ t, execBundleEvaluation b s = .next t ∧ Happening s layout t := by
  refine ⟨_, rfl, ?_⟩
  split
  · exact .changed .refl
  · rename_i w _
    split
    · have taken : Changes s (s.modifyCurrentWork fun w => { w with bundleEvals := dropFrom w.bundleEvals b }) :=
        changes_modifyCurrentWork fun _ => ⟨rfl, rfl⟩
      simp only
      split
      · next acts => exact happening_evaluateBundle w.frame taken (actsAt_eq_true.mp acts).1 rfl rfl fun _ => rfl
      · exact .changed taken
    · exact .changed .refl

/-! ### Layout commands -/

/-- A layout command: with the mode and the claim it needs, a setup or nothing (R145). -/
theorem happening_claimed {p : Port} {c : Command} {tag : Byte} {L : Nat} {data : State → List Byte}
    {body : State → Reply} {s : State} {layout : Prop} (allowed : s.mode = .config → layout)
    (h : ∀ u, u.mode = .config → Changes u (body u).state ∨ Setup u (body u).state) :
    Happening s layout (takeCommand p c tag L (fun s => claimed p (data s) body s) s) := by
  have ended := changes_setPort s p { s.portUnit p with transaction := .idle }
  rcases takeCommand_cases p c tag L (fun s => claimed p (data s) body s) s with h' | ⟨cause, h'⟩ | ⟨_, _, _, h'⟩ <;> rw [h']
  · exact .changed ended
  · exact .changed (ended.trans (changes_setPort _ _ _))
  · have placed : ∀ r : Reply, Changes r.state (if r.placed then r.state.respond p ⟨tag, r.status, r.data⟩ else r.state) := by
      intro r
      split
      · exact changes_setPort _ _ _
      · exact .refl
    rcases claimed_cases p (data (s.endTransaction p)) body (s.endTransaction p) with
      ⟨_, hc⟩ | ⟨_, _, hc⟩ | ⟨config, _, hc⟩ <;> simp only [hc]
    · exact .changed (ended.trans (placed (answer _ _ _)))
    · exact .changed (ended.trans (placed (answer _ _ _)))
    · rcases h _ config with run | setup
      · exact .changed ((ended.trans run).trans (placed _))
      · exact .setUp (allowed config) ended setup (placed _)

/-- The limits that a DEFINE_ENTRY carries have min not greater than max (R11). -/
theorem definedLimits_ordered {code : Byte} {words initial : List Word} {limits : Option Limits}
    (h : definedLimits code words = some (limits, initial)) (l : Limits) (hl : limits = some l) :
    l.kind.le l.min l.max = true := by
  subst hl
  unfold definedLimits at h
  split at h
  · cases h
  · simp at h
  · split at h
    · split at h
      · next ordered => cases h; exact ordered
      · cases h
    · cases h

/-- What a DEFINE_ENTRY that is not answered ARGUMENT describes (R11). -/
theorem definedEntry_eq_some {group width writers limits : Byte} {words : List Word} {v : ValueEntry}
    (h : definedEntry group width writers limits words = some v) :
    (1 ≤ v.width ∧ v.width ≤ 4 ∧ v.active.length = v.width) ∧ v.staged = none ∧ v.epoch = 0#16
      ∧ ∀ l, v.limits = some l → l.kind.le l.min l.max = true := by
  unfold definedEntry at h
  split at h
  · rename_i g ports lim initial _ _ hlim
    split at h
    · cases h
    · split at h
      · cases h
      · split at h
        · cases h
        · cases h
          exact ⟨⟨by dsimp only; omega, by dsimp only; omega, by simp_all⟩, rfl, rfl, definedLimits_ordered hlim⟩
  · cases h

theorem setup_defineEntryBody (index group width writers limits : Byte) (words : List Word) (s : State)
    (config : s.mode = .config) :
    Changes s (defineEntryBody index group width writers limits words s).state
      ∨ Setup s (defineEntryBody index group width writers limits words s).state := by
  unfold defineEntryBody
  split
  · exact .inl .refl
  · rename_i v hv
    obtain ⟨⟨low, high, len⟩, unstaged, epoch, ordered⟩ := definedEntry_eq_some hv
    split
    · exact .inl .refl
    · next undefined =>
      split
      · exact .inl .refl
      · next inside =>
        split
        · exact .inl .refl
        · next room =>
          refine .inr (.define index (.value v) config (by simpa using undefined) ?_ (not_lt.mp room))
          refine ⟨⟨low, high, len, by simp [unstaged]⟩, ?_, ?_⟩
          · rintro _ ⟨⟩; exact ⟨unstaged, epoch⟩
          · rintro _ l ⟨⟩ hl
            refine ⟨ordered l hl, ?_⟩
            simpa [withinLimits, hl] using inside

theorem definedFan_eq_some {index group writers : Byte} {targets : List Byte} {f : FanEntry}
    (h : definedFan index group writers targets = some f) : 1 ≤ f.targets.length ∧ f.targets.length ≤ 4 := by
  unfold definedFan at h
  split at h
  · split at h
    · cases h
    · split at h
      · cases h
      · split at h
        · cases h
        · cases h
          constructor <;> simp only <;> omega
  · cases h

theorem setup_defineFanBody (index group writers : Byte) (targets : List Byte) (s : State) (config : s.mode = .config) :
    Changes s (defineFanBody index group writers targets s).state
      ∨ Setup s (defineFanBody index group writers targets s).state := by
  unfold defineFanBody
  split
  · exact .inl .refl
  · rename_i f hf
    split
    · exact .inl .refl
    · next undefined =>
      exact .inr (.define index (.fan f) config (by simpa using undefined)
        ⟨definedFan_eq_some hf, by simp, by simp⟩ (Nat.zero_le _))

theorem setup_deleteEntryBody (index : Byte) (s : State) (config : s.mode = .config) :
    Changes s (deleteEntryBody index s).state ∨ Setup s (deleteEntryBody index s).state := by
  unfold deleteEntryBody
  split
  · exact .inl .refl
  · rename_i e he
    have := Setup.delete index config
    rw [he] at this
    right
    cases e <;> exact this

theorem setup_defineGroupBody (group staleLimit ackDeadline patienceLimit : Byte) (s : State) (config : s.mode = .config) :
    Changes s (defineGroupBody group staleLimit ackDeadline patienceLimit s).state
      ∨ Setup s (defineGroupBody group staleLimit ackDeadline patienceLimit s).state := by
  unfold defineGroupBody
  split
  · exact .inl .refl
  · split
    · exact .inl .refl
    · exact .inr (.parameters _ _ _ _ config)

theorem mem_allBundles (b : BundleId) : b ∈ allBundles := by
  revert b
  decide

/-- No group of the list is a member of another bundle (R87). -/
theorem heldElsewhere_eq_none {s : State} {b : BundleId} {gs : List GroupId} (h : heldElsewhere s b gs = none) :
    ∀ g ∈ gs, ∀ c, c ≠ b → inSet (s.bundle c) g = false := by
  induction gs with
  | nil => simp
  | cons g rest ih =>
    rw [heldElsewhere] at h
    split at h
    · cases h
    · rename_i absent
      refine List.forall_mem_cons.mpr ⟨fun c hc => ?_, ih h⟩
      have := List.find?_eq_none.mp absent c (mem_allBundles c)
      simpa [hc] using this

theorem length_groupsOf {list : List Byte} {gs : List GroupId} (h : groupsOf list = some gs) : gs.length = list.length := by
  induction list generalizing gs with
  | nil => cases h; rfl
  | cons x rest ih =>
    rw [groupsOf] at h
    split at h
    · rename_i g gs' _ hrest
      cases h
      simp [ih hrest]
    · cases h

theorem setup_defineBundleBody (bundle : Byte) (list : List Byte) (s : State) (config : s.mode = .config) :
    Changes s (defineBundleBody bundle list s).state ∨ Setup s (defineBundleBody bundle list s).state := by
  unfold defineBundleBody
  split
  · exact .inl .refl
  · split
    · exact .inl .refl
    · next many =>
      split
      · exact .inl .refl
      · rename_i gs hgs
        split
        · exact .inl .refl
        · next nodup =>
          split
          · exact .inl .refl
          · rename_i free
            exact .inr (.bundle _ gs config (not_not.mp nodup) (by rw [length_groupsOf hgs]; exact many)
              (heldElsewhere_eq_none free))

theorem setup_setFrameBody (source : Byte) (period : Word) (s : State) (config : s.mode = .config) :
    Changes s (setFrameBody source period s).state ∨ Setup s (setFrameBody source period s).state := by
  unfold setFrameBody
  split
  · exact .inl .refl
  · split
    · exact .inl .refl
    · next range =>
      obtain ⟨low, high⟩ := not_or.mp range
      exact .inr (.frame _ period config (not_lt.mp low) (not_lt.mp high))

end Sys2Proof.Proofs
end

section
namespace Sys2Proof.Proofs

open Sys2Proof Sys2Proof.Machine

/-! ### Every command -/

theorem happening_takeCommand {p : Port} {c : Command} {tag : Byte} {L : Nat} {body : State → Reply} {s : State}
    {layout : Prop} (h : ∀ s, Changes s (body s).state) : Happening s layout (takeCommand p c tag L body s) :=
  .changed (changes_takeCommand h)

/-- A command whose block answers from the state as it is. -/
theorem happening_answer {p : Port} {c : Command} {tag : Byte} {L : Nat} {body : State → Reply} {s : State}
    {layout : Prop} (h : ∀ s, (body s).state = s) : Happening s layout (takeCommand p c tag L body s) :=
  happening_takeCommand fun s => by rw [h]

theorem changes_dropOwed {s : State} {test : BoundaryWork → Bool} {f : BoundaryWork → BoundaryWork}
    (hf : ∀ w, (f w).kind = w.kind ∧ (f w).void = w.void) :
    Changes s (State.dropFinished { s with boundaries := modifyFirst test f s.boundaries }) :=
  (changes_modifyFirst hf).trans (changes_dropFinished _)

theorem changes_opening (s : State) : ∃ t, execOpening s = .next t ∧ Changes s t := by
  refine ⟨_, rfl, ?_⟩
  split
  · exact .refl
  · split
    · exact .refl
    · exact .head (.aside s.claim 0#16 s.commitPulse s.ports s.resetLow s.now s.pending)
        (changes_modifyCurrentWork fun _ => ⟨rfl, rfl⟩)

theorem changes_closing (s : State) : ∃ t, execClosing s = .next t ∧ Changes s t := by
  refine ⟨_, rfl, ?_⟩
  split
  · exact .refl
  · split
    · exact (Relation.ReflTransGen.head (.aside s.claim s.committedLast _ s.ports s.resetLow s.now s.pending)
        (changes_modifyCurrentWork (f := fun w => { w with closed := true }) fun _ => ⟨rfl, rfl⟩)).trans
        (changes_dropFinished _)
    · exact .refl

theorem changes_commitPulseEnd (s : State) : ∃ t, execCommitPulseEnd s = .next t ∧ Changes s t := by
  refine ⟨_, rfl, ?_⟩
  split
  · exact .refl
  · exact .single (.aside s.claim s.committedLast none s.ports s.resetLow _ s.pending)

theorem changes_patienceStep (g : GroupId) (s : State) : ∃ t, execPatienceStep g s = .next t ∧ Changes s t := by
  refine ⟨_, rfl, ?_⟩
  split
  · exact .refl
  · have taken := changes_dropOwed (s := s) (test := fun w => inSet w.patienceSteps g)
      (f := fun w => { w with patienceSteps := dropFrom w.patienceSteps g }) fun _ => ⟨rfl, rfl⟩
    simp only
    split
    · exact taken.trans (changes_advancePatience _ _)
    · exact taken

theorem changes_ackStep (g : GroupId) (s : State) : ∃ t, execAckStep g s = .next t ∧ Changes s t := by
  refine ⟨_, rfl, ?_⟩
  split
  · exact .refl
  · have taken := changes_dropOwed (s := s) (test := fun w => inSet w.ackSteps g)
      (f := fun w => { w with ackSteps := dropFrom w.ackSteps g }) fun _ => ⟨rfl, rfl⟩
    simp only
    split
    · exact taken.trans (changes_ageGroup _ _)
    · exact taken

theorem changes_boundaryTaken (s : State) : ∃ t, execBoundaryTaken s = .next t ∧ Changes s t := by
  refine ⟨_, rfl, ?_⟩
  split
  · next next => exact changes_takeBoundary next
  · exact .refl

theorem changes_frameLoss (s : State) : ∃ t, execFrameLoss s = .next t ∧ Changes s t := by
  refine ⟨_, rfl, ?_⟩
  split
  · next next => exact changes_takeFrameLoss next
  · exact .refl

theorem changes_internalTimer (s : State) : ∃ t, execInternalTimer s = .next t ∧ Changes s t := by
  refine ⟨_, rfl, ?_⟩
  split
  · next state => exact changes_produceBoundary _ _ _ _ ⟨rfl, rfl, id⟩ (by simp [state]) fun _ => rfl
  · next state => exact changes_produceBoundary _ _ _ _ ⟨rfl, rfl, id⟩ (by simp [state]) (by simp [state])
  · exact .refl

theorem changes_windowExpiry (s : State) : ∃ t, execWindowExpiry s = .next t ∧ Changes s t := by
  refine ⟨_, rfl, ?_⟩
  split
  · next state _ _ => exact changes_expireWindow state
  · exact .refl

theorem changes_enterFirst (s : State) : ∃ t, execEnterFirst s = .next t ∧ Changes s t := by
  refine ⟨_, rfl, ?_⟩
  split
  · next next => exact .single (.timingFirst _ _ _ next ⟨rfl, rfl, fun _ => by simp⟩ rfl)
  · exact .refl

theorem changes_enterStopped (s : State) : ∃ t, execEnterStopped s = .next t ∧ Changes s t := by
  refine ⟨_, rfl, ?_⟩
  split
  · next next => exact .single (.timingStopped _ _ next ⟨rfl, rfl, id⟩ rfl)
  · exact .refl

theorem changes_badframe (p : Port) (mosi : List Byte) (s : State) :
    ∃ t, execBadframe p mosi s = .next t ∧ Changes s t := by
  refine ⟨_, rfl, ?_⟩
  split
  · exact changes_setPort _ _ _
  · split
    · exact changes_setPort _ _ _
    · split
      · exact (changes_setPort _ _ _).trans (changes_setPort _ _ _)
      · exact .refl

theorem changes_csFalls (p : Port) (s : State) : ∃ t, execCsFalls p s = .next t ∧ Changes s t := by
  refine ⟨_, rfl, ?_⟩
  split
  · exact changes_setPort _ _ _
  all_goals exact .refl

theorem changes_fsyncEdge (time : Nat) (s : State) : ∃ t, execFsyncEdge time s = .next t ∧ Changes s t := by
  refine ⟨_, rfl, ?_⟩
  split
  · exact changes_now _ _
  · exact changes_takeEdge _ _

theorem happening_of_changes {s : State} {layout : Prop} {r : Result} (h : ∃ t, r = .next t ∧ Changes s t) :
    ∃ t, r = .next t ∧ Happening s layout t := by
  obtain ⟨t, ht, run⟩ := h
  exact ⟨t, ht, .changed run⟩

/-- When a command may touch the layout: in CONFIG, or as a device reset by a pin (R10, R156). -/
abbrev MayTouchLayout (c : Instr) (s : State) : Prop := s.mode = .config ∨ c = .resetAssert ∨ c = .powerUp

/-- Every command answers, and what it does is one happening. -/
theorem exec_happening (c : Instr) (s : State) : ∃ t, exec c s = .next t ∧ Happening s (MayTouchLayout c s) t := by
  match c with
  | .nop _ _ | .status _ _ => exact ⟨_, rfl, happening_answer fun _ => rfl⟩
  | .join p tag attention => exact ⟨_, rfl, happening_takeCommand (changes_joinReply p attention)⟩
  | .leave p tag => exact ⟨_, rfl, happening_takeCommand (changes_leaveReply p)⟩
  | .fetch p tag n => exact ⟨_, rfl, happening_takeCommand (changes_fetchReply p n)⟩
  | .claimConfig p tag => exact ⟨_, rfl, happening_takeCommand (changes_claimReply p)⟩
  | .releaseConfig p tag => exact ⟨_, rfl, happening_takeCommand (changes_releaseClaimReply p)⟩
  | .start p tag => exact ⟨_, rfl, happening_claimed .inl fun _ config => .inl (changes_startBody config)⟩
  | .stop p tag => exact ⟨_, rfl, happening_takeCommand changes_stopReply⟩
  | .resume p tag => exact ⟨_, rfl, happening_takeCommand changes_resumeReply⟩
  | .resetDevice p tag => exact ⟨_, rfl, happening_claimed .inl fun _ _ => .inr .reset⟩
  | .defineEntry p tag index group width writers limits words =>
    exact ⟨_, rfl, happening_claimed .inl (setup_defineEntryBody index group width writers limits words)⟩
  | .defineFan p tag index group writers targets =>
    exact ⟨_, rfl, happening_claimed .inl (setup_defineFanBody index group writers targets)⟩
  | .deleteEntry p tag index => exact ⟨_, rfl, happening_claimed .inl (setup_deleteEntryBody index)⟩
  | .defineGroup p tag group staleLimit ackDeadline patienceLimit =>
    exact ⟨_, rfl, happening_claimed .inl (setup_defineGroupBody group staleLimit ackDeadline patienceLimit)⟩
  | .defineBundle p tag bundle members => exact ⟨_, rfl, happening_claimed .inl (setup_defineBundleBody bundle members)⟩
  | .setFrame p tag source period => exact ⟨_, rfl, happening_claimed .inl (setup_setFrameBody source period)⟩
  | .read p tag index => exact ⟨_, rfl, happening_answer (state_readReply index)⟩
  | .readSet p tag indices => exact ⟨_, rfl, happening_answer (state_readSetReply indices)⟩
  | .groupStatus p tag group => exact ⟨_, rfl, happening_answer (state_groupStatusReply p group)⟩
  | .lease p tag group => exact ⟨_, rfl, happening_takeCommand (changes_leaseReply p group)⟩
  | .release p tag group => exact ⟨_, rfl, happening_takeCommand (changes_releaseReply p group)⟩
  | .stage p tag index words => exact ⟨_, rfl, happening_takeCommand (changes_stageReply p index words)⟩
  | .unstage p tag index => exact ⟨_, rfl, happening_takeCommand (changes_unstageReply p index)⟩
  | .seal p tag group delay marked => exact ⟨_, rfl, happening_takeCommand (changes_sealReply p group delay marked)⟩
  | .unseal p tag group => exact ⟨_, rfl, happening_takeCommand (changes_unsealReply p group)⟩
  | .readStaged p tag index => exact ⟨_, rfl, happening_takeCommand (changes_readStagedReply p index)⟩
  | .subscribe p tag group mode => exact ⟨_, rfl, happening_takeCommand (changes_subscribeReply p group mode)⟩
  | .ack p tag group epoch => exact ⟨_, rfl, happening_takeCommand (changes_ackReply p group epoch)⟩
  | .badframe p mosi => exact happening_of_changes (changes_badframe p mosi s)
  | .pureRead p => exact ⟨_, rfl, .changed (changes_setPort _ _ _)⟩
  | .fsyncEdge time => exact happening_of_changes (changes_fsyncEdge time s)
  | .internalTimer => exact happening_of_changes (changes_internalTimer s)
  | .windowExpiry => exact happening_of_changes (changes_windowExpiry s)
  | .frameLoss => exact happening_of_changes (changes_frameLoss s)
  | .boundaryTaken => exact happening_of_changes (changes_boundaryTaken s)
  | .enterFirst => exact happening_of_changes (changes_enterFirst s)
  | .enterStopped => exact happening_of_changes (changes_enterStopped s)
  | .opening => exact happening_of_changes (changes_opening s)
  | .groupEvaluation g => exact happening_groupEvaluation g s
  | .bundleEvaluation b => exact happening_bundleEvaluation b s
  | .closing => exact happening_of_changes (changes_closing s)
  | .commitPulseEnd => exact happening_of_changes (changes_commitPulseEnd s)
  | .patienceStep g => exact happening_of_changes (changes_patienceStep g s)
  | .ackStep g => exact happening_of_changes (changes_ackStep g s)
  | .noticeArrival p n => exact ⟨_, rfl, .changed (changes_notify s p n)⟩
  | .resetAssert =>
    exact ⟨_, rfl, .setUp (.inr (.inl rfl)) .refl .reset
      (.single (.aside none 0#16 none _ true s.now s.pending))⟩
  | .resetRelease =>
    exact ⟨_, rfl, .changed (.single (.aside s.claim s.committedLast s.commitPulse s.ports false s.now s.pending))⟩
  | .powerUp => exact ⟨_, rfl, .setUp (.inr (.inr rfl)) .refl .reset .refl⟩
  | .csFalls p => exact happening_of_changes (changes_csFalls p s)

/-- Every step with a command waiting is one happening. -/
theorem step_happening {s t : State} {c : Instr} {rest : List Instr} (next : s.pending = c :: rest)
    (h : step s = .next t) : Happening { s with pending := rest } (MayTouchLayout c s) t := by
  obtain ⟨u, hu, happening⟩ := exec_happening c { s with pending := rest }
  simp only [step, next] at h
  rw [hu] at h
  cases h
  exact happening

theorem change_pending (s : State) (rest : List Instr) : Change s { s with pending := rest } :=
  .aside s.claim s.committedLast s.commitPulse s.ports s.resetLow s.now rest

theorem step_idle {s t : State} (idle : s.pending = []) (h : step s = .next t) : t = s := by
  simp only [step, idle] at h
  cases h
  rfl

/-! ### Laws kept by every step -/

/-- A law is kept by every step if each change, each setup and each commit of a SEALED group in RUNNING keeps it. -/
theorem law_step {P : State → Prop} (change : ∀ s t, P s → Change s t → P t) (setup : ∀ s t, P s → Setup s t → P t)
    (commit : ∀ frame g s, P s → s.mode = .running → (s.group g).state = .sealed → P (commitGroup frame g s))
    (s t : State) (h : P s) (hstep : step s = .next t) : P t := by
  have run : ∀ {u v}, P u → Changes u v → P v := fun hu huv => by
    induction huv with
    | refl => exact hu
    | tail _ last ih => exact change _ _ ih last
  have commits : ∀ frame (gs : List GroupId) u, P u → u.mode = .running → gs.Nodup →
      (∀ g ∈ gs, (u.group g).state = .sealed) → P (gs.foldl (fun t g => commitGroup frame g t) u) := by
    intro frame gs
    induction gs with
    | nil => exact fun _ hu _ _ _ => hu
    | cons g rest ih =>
      intro u hu mode nodup due
      obtain ⟨apart, nodup⟩ := List.nodup_cons.mp nodup
      obtain ⟨first, others⟩ := List.forall_mem_cons.mp due
      refine ih _ (commit frame g u hu mode first) (by dsimp only; rw [commitGroup_eq]; exact mode) nodup fun k hk => ?_
      dsimp only
      rw [group_commitGroup, if_neg (fun same : g = k => apart (same ▸ hk))]
      exact others k hk
  cases next : s.pending with
  | nil => rw [step_idle next hstep]; exact h
  | cons c rest =>
    have start : P { s with pending := rest } := change s _ h (change_pending s rest)
    cases step_happening next hstep with
    | changed go => exact run start go
    | setUp _ before made after => exact run (setup _ _ (run start before) made) after
    | committed frame gs running before mode _ _ nodup due =>
      exact commits frame gs _ (run start before) (mode.trans running) nodup due

end Sys2Proof.Proofs
end

section
namespace Sys2Proof.Proofs

open Sys2Proof Sys2Proof.Machine

/-! ## What changes, setups and commits do to the records -/

@[simp] theorem enterConfig_mode (s : State) : (enterConfig s).mode = .config := by rw [enterConfig_eq]
@[simp] theorem enterConfig_freeWords (s : State) : (enterConfig s).freeWords = s.freeWords := by rw [enterConfig_eq]
@[simp] theorem enterConfig_bundles (s : State) : (enterConfig s).bundles = s.bundles := by rw [enterConfig_eq]
@[simp] theorem enterConfig_timing (s : State) : (enterConfig s).timing = s.timing := by rw [enterConfig_eq]
@[simp] theorem enterConfig_toTiming (s : State) : (enterConfig s).toTiming = s.toTiming ++ [.enterConfig] := by
  rw [enterConfig_eq]

/-! ### Entries -/

/-- The definition of an entry: what it is without its active words, its staged words and its entry epoch (R1, R10). -/
def definition : Option Entry → Option Entry
  | some (.value v) => some (.value { v with active := [], staged := none, epoch := 0#16 })
  | e => e

@[simp] theorem definition_clearStaged (e : Option Entry) : definition (clearStaged e) = definition e := by
  match e with
  | none | some (.value _) | some (.fan _) => rfl

@[simp] theorem clearStaged_clearStaged (e : Option Entry) : clearStaged (clearStaged e) = clearStaged e := by
  match e with
  | none | some (.value _) | some (.fan _) => rfl

theorem definition_commitEntry (g : GroupId) (epoch : Half) (e : Option Entry) :
    definition (commitEntry g epoch e) = definition e := by
  match e with
  | none | some (.fan _) => rfl
  | some (.value v) =>
    rw [commitEntry_value]
    split
    · cases v.staged with
      | some words => rfl
      | none => dsimp only; split <;> rfl
    · rfl

theorem clearStaged_eq_value {e : Option Entry} {w : ValueEntry} (h : clearStaged e = some (.value w)) :
    ∃ v, e = some (.value v) ∧ w = { v with staged := none } := by
  match e with
  | none | some (.fan _) => cases h
  | some (.value v) => cases h; exact ⟨v, rfl, rfl⟩

/-- An entry that has the definition of a VALUE entry is one, with the same group, width, writer set and limits. -/
theorem definition_eq_value {e : Option Entry} {v : ValueEntry} (h : definition e = definition (some (.value v))) :
    ∃ w, e = some (.value w) ∧ w.group = v.group ∧ w.width = v.width ∧ w.writers = v.writers ∧ w.limits = v.limits := by
  match e with
  | none | some (.fan _) => cases h
  | some (.value w) =>
    simp only [definition, Option.some.injEq, Entry.value.injEq, ValueEntry.mk.injEq] at h
    obtain ⟨group, width, -, -, -, writers, limits⟩ := h
    exact ⟨w, rfl, group, width, writers, limits⟩

theorem definition_eq_fan {e : Option Entry} {f : FanEntry} (h : definition e = definition (some (.fan f))) :
    e = some (.fan f) := by
  match e with
  | none | some (.value _) => cases h
  | some (.fan _) => exact h

theorem definition_eq_none {e : Option Entry} (h : definition e = none) : e = none := by
  match e with
  | none => rfl
  | some (.value _) | some (.fan _) => cases h

/-- Words staged at an entry as an accepted STAGE stages them (R5, R19, R20, R26). -/
structure Staged (s : State) (v : ValueEntry) (words : List Word) : Prop where
  shaped : words.length = v.width
  admitted : ∀ l, v.limits = some l → l.kind.le l.min l.max = true → ∀ w ∈ words, l.within w = true
  opened : (s.group v.group).state ≠ .idle

/-- All that a change can do to an entry: nothing, remove what was staged, or stage words (R4, R19, R21). -/
theorem Change.entry_cases {s t : State} (h : Change s t) (i : Byte) :
    t.entry i = s.entry i ∨ t.entry i = clearStaged (s.entry i)
      ∨ ∃ v words, s.entry i = some (.value v) ∧ Staged s v words
          ∧ t.entry i = some (.value { v with staged := some words }) := by
  cases h with
  | discard g =>
    rw [entry_discardSet, discardEntry]
    split
    · exact .inr (.inl rfl)
    · exact .inl rfl
  | enterConfig => exact .inr (.inl (entry_enterConfig s i))
  | stage j v words here shaped admitted opened =>
    rw [entry_setEntry]
    split
    · next same => subst same; exact .inr (.inr ⟨v, words, here, ⟨shaped, admitted, opened⟩, rfl⟩)
    · exact .inl rfl
  | unstage j =>
    rw [entry_setEntry]
    split
    · next same => subst same; exact .inr (.inl rfl)
    · exact .inl rfl
  | aside | works | regroup | start | enter | void | handOn | taken | report | retime | timingFirst | timingStopped =>
    exact .inl rfl

/-! ### Values and layout kept -/

/-- Active words, entry epochs, definitions and group epochs as they were: all but the staged words of the table. -/
structure ValuesKept (s t : State) : Prop where
  entries : ∀ i, clearStaged (t.entry i) = clearStaged (s.entry i)
  epochs : ∀ g, (t.group g).epoch = (s.group g).epoch

/-- A group record with the parameters of another (R33). -/
structure SameParameters (r r' : Group) : Prop where
  staleLimit : r'.staleLimit = r.staleLimit
  ackDeadline : r'.ackDeadline = r.ackDeadline
  patienceLimit : r'.patienceLimit = r.patienceLimit

/-- The layout, the parameters and the frame settings as they were (R10, R33, R86, R122). -/
structure LayoutKept (s t : State) : Prop where
  entries : ∀ i, definition (t.entry i) = definition (s.entry i)
  freeWords : t.freeWords = s.freeWords
  bundles : t.bundles = s.bundles
  timing : Retime s.timing t.timing
  parameters : ∀ g, SameParameters (s.group g) (t.group g)

theorem LayoutKept.refl (s : State) : LayoutKept s s :=
  ⟨fun _ => rfl, rfl, rfl, .refl _, fun _ => ⟨rfl, rfl, rfl⟩⟩

theorem LayoutKept.trans {s t u : State} (h : LayoutKept s t) (k : LayoutKept t u) : LayoutKept s u where
  entries i := (k.entries i).trans (h.entries i)
  freeWords := k.freeWords.trans h.freeWords
  bundles := k.bundles.trans h.bundles
  timing := ⟨k.timing.source.trans h.timing.source, k.timing.period.trans h.timing.period,
    fun b => k.timing.flywheel (h.timing.flywheel b)⟩
  parameters g := ⟨(k.parameters g).staleLimit.trans (h.parameters g).staleLimit,
    (k.parameters g).ackDeadline.trans (h.parameters g).ackDeadline,
    (k.parameters g).patienceLimit.trans (h.parameters g).patienceLimit⟩

/-- What no change but a commit does to a group: its epoch and its parameters stay (R30, R33). -/
theorem Change.group_kept {s t : State} (h : Change s t) (g : GroupId) :
    (t.group g).epoch = (s.group g).epoch ∧ SameParameters (s.group g) (t.group g) := by
  cases h with
  | regroup k r kept =>
    rw [group_setGroup]
    split
    · next same => subst same; exact ⟨kept.epoch, kept.staleLimit, kept.ackDeadline, kept.patienceLimit⟩
    · exact ⟨rfl, rfl, rfl, rfl⟩
  | discard k =>
    rw [group_discardSet]
    split
    · next same => subst same; exact ⟨rfl, rfl, rfl, rfl⟩
    · exact ⟨rfl, rfl, rfl, rfl⟩
  | enterConfig => rw [group_enterConfig]; exact ⟨rfl, rfl, rfl, rfl⟩
  | aside | works | stage | unstage | start | enter | void | handOn | taken | report | retime | timingFirst
  | timingStopped => exact ⟨rfl, rfl, rfl, rfl⟩

theorem Change.valuesKept {s t : State} (h : Change s t) : ValuesKept s t where
  entries i := by
    rcases h.entry_cases i with same | cleared | ⟨v, words, here, -, staged⟩
    · rw [same]
    · rw [cleared, clearStaged_clearStaged]
    · rw [staged, here]; rfl
  epochs g := (h.group_kept g).1

theorem Change.layoutKept {s t : State} (h : Change s t) : LayoutKept s t where
  entries i := by rw [← definition_clearStaged, h.valuesKept.entries, definition_clearStaged]
  parameters g := (h.group_kept g).2
  freeWords := by
    cases h with
    | enterConfig => exact enterConfig_freeWords s
    | aside | works | regroup | discard | stage | unstage | start | enter | void | handOn | taken | report | retime
    | timingFirst | timingStopped => rfl
  bundles := by
    cases h with
    | enterConfig => exact enterConfig_bundles s
    | aside | works | regroup | discard | stage | unstage | start | enter | void | handOn | taken | report | retime
    | timingFirst | timingStopped => rfl
  timing := by
    cases h with
    | report _ _ kept | retime _ kept | timingFirst _ _ _ _ kept | timingStopped _ _ _ kept => exact kept
    | enterConfig => rw [enterConfig_timing]; exact .refl _
    | aside | works | regroup | discard | stage | unstage | start | enter | void | handOn | taken => exact .refl _

theorem changes_valuesKept {s t : State} (h : Changes s t) : ValuesKept s t := by
  induction h with
  | refl => exact ⟨fun _ => rfl, fun _ => rfl⟩
  | tail _ last ih =>
    exact ⟨fun i => (last.valuesKept.entries i).trans (ih.entries i), fun g => (last.valuesKept.epochs g).trans (ih.epochs g)⟩

theorem changes_layoutKept {s t : State} (h : Changes s t) : LayoutKept s t := by
  induction h with
  | refl => exact .refl s
  | tail _ last ih => exact ih.trans last.layoutKept

theorem layoutKept_commitGroup (frame : Half) (g : GroupId) (s : State) : LayoutKept s (commitGroup frame g s) where
  entries i := by rw [entry_commitGroup, definition_commitEntry]
  freeWords := by rw [commitGroup_eq]
  bundles := by rw [commitGroup_eq]
  timing := by rw [commitGroup_eq]; exact .refl _
  parameters h := by
    rw [group_commitGroup]
    split
    · next same => subst same; exact ⟨rfl, rfl, rfl⟩
    · exact ⟨rfl, rfl, rfl⟩

/-- Settles O59: outside CONFIG a step is changes or commits, and neither touches the layout. -/
theorem layoutFixedOutsideConfig : Obligations.LayoutFixedOutsideConfig := by
  intro s t c rest next notAssert notPower notConfig hstep
  have kept : LayoutKept s t := by
    have queue : LayoutKept s { s with pending := rest } := (change_pending s rest).layoutKept
    cases step_happening next hstep with
    | changed run => exact queue.trans (changes_layoutKept run)
    | setUp allowed => exact absurd allowed (by simp [MayTouchLayout, notConfig, notAssert, notPower])
    | committed frame gs _ before =>
      have commits : ∀ (gs : List GroupId) u, LayoutKept u (gs.foldl (fun t g => commitGroup frame g t) u) := by
        intro gs
        induction gs with
        | nil => exact .refl
        | cons g gs ih => exact fun u => (layoutKept_commitGroup frame g u).trans (ih _)
      exact (queue.trans (changes_layoutKept before)).trans (commits gs _)
  refine ⟨kept.bundles, kept.freeWords, kept.timing.source, kept.timing.period, fun g => ?_, fun i => ?_⟩
  · obtain ⟨stale, deadline, patience⟩ := kept.parameters g
    exact ⟨stale, deadline, patience⟩
  · have same := kept.entries i
    match hs : s.entry i with
    | none => rw [hs] at same; rw [definition_eq_none same]; trivial
    | some (.fan f) => rw [hs] at same; rw [definition_eq_fan same]
    | some (.value v) =>
      rw [hs] at same
      obtain ⟨w, hw, group, width, writers, limits⟩ := definition_eq_value same
      rw [hw]
      exact ⟨group.symm, width.symm, writers.symm, limits.symm⟩

end Sys2Proof.Proofs
end

section
namespace Sys2Proof.Proofs

open Sys2Proof Sys2Proof.Machine

/-! ## The reset state -/

@[simp] theorem entry_reset (i : Byte) : State.reset.entry i = none := by simp [State.entry, State.reset]

@[simp] theorem group_reset (g : GroupId) : State.reset.group g = Group.reset := by simp [State.group, State.reset]

@[simp] theorem bundle_reset (b : BundleId) : State.reset.bundle b = 0#16 := by simp [State.bundle, State.reset]

@[simp] theorem portUnit_reset (p : Port) : State.reset.portUnit p = PortUnit.reset := PerPort.get_fill _ _

/-- Settles O2, block by block. -/
theorem resetHoldsManualValues : Obligations.ResetHoldsManualValues := by
  refine ⟨rfl, rfl, entry_reset, rfl, fun g => by rw [group_reset]; rfl, bundle_reset, rfl, rfl, rfl, fun p => ?_⟩
  rw [State.isOnline, portUnit_reset]
  exact ⟨rfl, rfl, rfl, rfl, rfl, rfl⟩

theorem wordsInUse_reset : wordsInUse State.reset = 0 := by
  rw [wordsInUse, show State.reset.entries.toList = List.replicate 256 none from Vector.toList_replicate,
    List.map_replicate, List.sum_replicate]
  rfl

/-- Settles O3: the table is empty, the groups are IDLE with nothing held, the ports OFFLINE, and nothing is in flight. -/
theorem resetMeetsEveryLaw : Obligations.ResetMeetsEveryLaw where
  queues p := by rw [portUnit_reset]; exact ⟨Nat.zero_le _, nofun⟩
  quiet p _ := by rw [portUnit_reset]; exact ⟨rfl, rfl⟩
  responses p := by rw [portUnit_reset]; exact ⟨Nat.zero_le _, nofun⟩
  store := ⟨by rw [wordsInUse_reset]; rfl, fun i e h => by rw [entry_reset] at h; cases h⟩
  limits i v l h := by rw [entry_reset] at h; cases h
  epochs i v h := by rw [entry_reset] at h; cases h
  leases g := by rw [group_reset]; exact ⟨.nil, nofun, fun _ => rfl, nofun⟩
  patience g := by rw [group_reset]; exact ⟨fun _ => rfl, fun h => absurd rfl h⟩
  obligations g p := by
    rw [group_reset]
    exact ⟨fun h => by simp [Group.reset] at h, fun h => by simp [Group.reset] at h⟩
  groups := ⟨fun g => by rw [group_reset]; exact ⟨fun _ => ⟨rfl, rfl, rfl, rfl⟩, nofun, nofun, fun _ => ⟨rfl, rfl, rfl, rfl, rfl⟩⟩,
    fun i v h => by rw [entry_reset] at h; cases h⟩
  claim _ := nofun
  fans h := absurd rfl h
  bundles := ⟨fun b g h => by simp [inSet] at h, fun b c _ => by simp⟩
  timing := ⟨Nat.zero_le _, by decide, by decide⟩
  stopped _ _ := nofun
  reports := ⟨fun _ => .inl rfl, fun _ => ⟨fun _ => ⟨rfl, rfl⟩, nofun⟩⟩
  held := nofun

/-! ## The table (R1, R3, R5, R7) -/

/-! ### The words in use -/

theorem sum_map_set {α : Type} (f : α → Nat) (l : List α) (n : Nat) (a : α) (h : n < l.length) :
    ((l.set n a).map f).sum + f l[n] = (l.map f).sum + f a := by
  induction l generalizing n with
  | nil => cases h
  | cons x rest ih =>
    cases n with
    | zero => simp; omega
    | succ n =>
      have := ih n (Nat.lt_of_succ_lt_succ h)
      simp only [List.set_cons_succ, List.map_cons, List.sum_cons, List.getElem_cons_succ]
      omega

theorem wordsInUse_setEntry (s : State) (i : Byte) (e : Option Entry) :
    wordsInUse (s.setEntry i e) + wordsTaken (s.entry i) = wordsInUse s + wordsTaken e := by
  have h := sum_map_set wordsTaken s.entries.toList i.toNat e (by simpa using i.isLt)
  simpa [wordsInUse, State.setEntry, State.entry, Vector.toList_set] using h

theorem wordsTaken_definition (e : Option Entry) : wordsTaken (definition e) = wordsTaken e := by
  match e with
  | none | some (.value _) | some (.fan _) => rfl

/-- The words in use are a matter of definitions only (R3). -/
theorem wordsInUse_congr {s t : State} (h : ∀ i, definition (t.entry i) = definition (s.entry i)) :
    wordsInUse t = wordsInUse s := by
  have each : ∀ i, wordsTaken (t.entry i) = wordsTaken (s.entry i) := fun i => by
    rw [← wordsTaken_definition, h, wordsTaken_definition]
  refine congrArg List.sum (List.ext_getElem (by simp) fun n hn _ => ?_)
  have hn : n < 256 := by simpa using hn
  simpa [State.entry, Nat.mod_eq_of_lt hn] using each (BitVec.ofNat 8 n)

/-! ### Laws of single entries -/

theorem entryShaped_clearStaged {e e' : Entry} (h : EntryShaped e) (h' : clearStaged (some e) = some e') :
    EntryShaped e' := by
  cases e with
  | value v =>
    obtain ⟨low, high, active, -⟩ := h
    cases h'
    exact ⟨low, high, active, nofun⟩
  | fan f => cases h'; exact h

/-- Staging keeps every entry in its shape (R1). -/
theorem change_entryShaped {s t : State} (h : ∀ i e, s.entry i = some e → EntryShaped e) (hc : Change s t) :
    ∀ i e, t.entry i = some e → EntryShaped e := by
  intro i e he
  rcases hc.entry_cases i with same | cleared | ⟨v, words, here, staged, now⟩
  · exact h i e (same ▸ he)
  · cases hs : s.entry i with
    | none => rw [cleared, hs] at he; cases he
    | some e' => exact entryShaped_clearStaged (h i e' hs) (by rw [← hs, ← cleared, he])
  · rw [now] at he
    cases he
    obtain ⟨low, high, active, _⟩ := h i _ here
    exact ⟨low, high, active, by rintro _ ⟨⟩; exact staged.shaped⟩

theorem commit_entryShaped {s : State} (frame : Half) (g : GroupId) (h : ∀ i e, s.entry i = some e → EntryShaped e) :
    ∀ i e, (commitGroup frame g s).entry i = some e → EntryShaped e := by
  intro i e he
  rw [entry_commitGroup] at he
  match hs : s.entry i with
  | none => rw [hs] at he; cases he
  | some (.fan f) => rw [hs] at he; cases he; exact h i _ hs
  | some (.value v) =>
    obtain ⟨low, high, active, staged⟩ := h i _ hs
    rw [hs, commitEntry_value] at he
    cases he
    split
    · split
      · next words hw => exact ⟨low, high, staged words hw, nofun⟩
      · split <;> exact ⟨low, high, active, staged⟩
    · exact ⟨low, high, active, staged⟩

/-- A setup makes no entry but a fresh one (R11, R13). -/
theorem Setup.entry_cases {s t : State} (h : Setup s t) (i : Byte) :
    t.entry i = s.entry i ∨ t.entry i = none ∨ ∃ e, Fresh e ∧ s.entry i = none ∧ t.entry i = some e := by
  cases h with
  | define j e _ undefined fresh =>
    by_cases same : j = i
    · subst same; exact .inr (.inr ⟨e, fresh, undefined, entry_setEntry_self s j _⟩)
    · left; exact (entry_setEntry s j i _).trans (if_neg same)
  | delete j =>
    by_cases same : j = i
    · subst same; exact .inr (.inl (entry_setEntry_self s j _))
    · left; exact (entry_setEntry s j i _).trans (if_neg same)
  | reset => exact .inr (.inl (entry_deviceReset s i))
  | parameters | bundle | frame => exact .inl rfl

theorem setup_entryShaped {s t : State} (h : ∀ i e, s.entry i = some e → EntryShaped e) (hs : Setup s t) :
    ∀ i e, t.entry i = some e → EntryShaped e := by
  intro i e he
  rcases hs.entry_cases i with same | gone | ⟨e', fresh, _, now⟩
  · exact h i e (same ▸ he)
  · rw [gone] at he; cases he
  · rw [now] at he; cases he; exact fresh.shaped

theorem setup_storeAccounted {s t : State} (h : StoreAccounted s) (hs : Setup s t) : StoreAccounted t := by
  refine ⟨?_, setup_entryShaped h.2 hs⟩
  have sum := h.1
  cases hs with
  | define i e _ undefined _ room =>
    have := wordsInUse_setEntry s i (some e)
    rw [undefined, show wordsTaken none = 0 from rfl] at this
    change wordsInUse (s.setEntry i (some e)) + (s.freeWords - wordsTaken (some e)) = 512
    omega
  | delete i =>
    have := wordsInUse_setEntry s i none
    rw [show wordsTaken none = 0 from rfl] at this
    change wordsInUse (s.setEntry i none) + (s.freeWords + wordsTaken (s.entry i)) = 512
    omega
  | reset => exact resetMeetsEveryLaw.store.1
  | parameters | bundle | frame => exact sum

theorem storeAccounted_of_layoutKept {s t : State} (h : StoreAccounted s) (kept : LayoutKept s t)
    (shaped : ∀ i e, t.entry i = some e → EntryShaped e) : StoreAccounted t :=
  ⟨by rw [wordsInUse_congr kept.entries, kept.freeWords]; exact h.1, shaped⟩

/-! ### Limits -/

/-- The law of R5 for one VALUE entry. -/
def WithinLimits (v : ValueEntry) : Prop :=
  ∀ l, v.limits = some l → l.kind.le l.min l.max = true ∧ (∀ w ∈ v.active, l.within w = true)
    ∧ (∀ words, v.staged = some words → ∀ w ∈ words, l.within w = true)

theorem limitsHeld_iff (s : State) : LimitsHeld s ↔ ∀ i v, s.entry i = some (.value v) → WithinLimits v :=
  ⟨fun h i v hv l => h i v l hv, fun h i v l hv => h i v hv l⟩

theorem change_limitsHeld (s t : State) (h : LimitsHeld s) (hc : Change s t) : LimitsHeld t := by
  rw [limitsHeld_iff] at h ⊢
  intro i v hv
  rcases hc.entry_cases i with same | cleared | ⟨u, words, here, staged, now⟩
  · exact h i v (same ▸ hv)
  · rw [cleared] at hv
    obtain ⟨u, hu, rfl⟩ := clearStaged_eq_value hv
    intro l hl
    obtain ⟨ordered, active, -⟩ := h i u hu l hl
    exact ⟨ordered, active, nofun⟩
  · rw [now] at hv
    cases hv
    intro l hl
    obtain ⟨ordered, active, -⟩ := h i u here l hl
    exact ⟨ordered, active, by rintro _ ⟨⟩; exact staged.admitted l hl ordered⟩

theorem setup_limitsHeld (s t : State) (h : LimitsHeld s) (hs : Setup s t) : LimitsHeld t := by
  rw [limitsHeld_iff] at h ⊢
  intro i v hv
  rcases hs.entry_cases i with same | gone | ⟨e, fresh, _, now⟩
  · exact h i v (same ▸ hv)
  · rw [gone] at hv; cases hv
  · rw [now] at hv
    cases hv
    intro l hl
    obtain ⟨ordered, active⟩ := fresh.limited v l rfl hl
    exact ⟨ordered, active, by simp [(fresh.unstaged v rfl).1]⟩

theorem commit_limitsHeld (frame : Half) (g : GroupId) (s : State) (h : LimitsHeld s) : LimitsHeld (commitGroup frame g s) := by
  rw [limitsHeld_iff] at h ⊢
  intro i v hv
  rw [entry_commitGroup] at hv
  match hs : s.entry i with
  | none => rw [hs] at hv; cases hv
  | some (.fan f) => rw [hs] at hv; cases hv
  | some (.value u) =>
    have law := h i u hs
    rw [hs, commitEntry_value] at hv
    cases hv
    split
    · split
      · next words hw =>
        intro l hl
        obtain ⟨ordered, _, staged⟩ := law l hl
        exact ⟨ordered, staged words hw, nofun⟩
      · split <;> exact law
    · exact law

/-! ### Epochs -/

theorem toNat_nextEpoch (e : Half) : (nextEpoch e).toNat = if e = 0xFFFF#16 then 1 else e.toNat + 1 := by
  unfold nextEpoch
  split
  · rfl
  · bv_omega

theorem change_epochsOrdered (s t : State) (h : EpochsOrdered s) (hc : Change s t) : EpochsOrdered t := by
  intro i v hv
  rw [(hc.group_kept v.group).1]
  have cleared := hc.valuesKept.entries i
  rw [hv] at cleared
  obtain ⟨u, hu, same⟩ := clearStaged_eq_value cleared.symm
  simp only [ValueEntry.mk.injEq] at same
  obtain ⟨group, -, -, -, epoch, -, -⟩ := same
  rw [group, epoch]
  exact h i u hu

theorem setup_epochsOrdered (s t : State) (h : EpochsOrdered s) (hs : Setup s t) : EpochsOrdered t := by
  intro i v hv
  rcases hs.entry_cases i with same | gone | ⟨e, fresh, _, now⟩
  · have epoch : ∀ g, (t.group g).epoch = (s.group g).epoch ∨ t.entry i = none := by
      intro g
      cases hs with
      | parameters k =>
        left
        rw [group_modifyGroup]
        split
        · next same => subst same; rfl
        · rfl
      | reset => exact .inr (entry_deviceReset s i)
      | define | delete | bundle | frame => exact .inl rfl
    rcases epoch v.group with e | gone
    · rw [e]; exact h i v (same ▸ hv)
    · rw [gone] at hv; cases hv
  · rw [gone] at hv; cases hv
  · rw [now] at hv
    cases hv
    rw [(fresh.unstaged v rfl).2]
    exact Nat.zero_le _

theorem commit_epochsOrdered (frame : Half) (g : GroupId) (s : State) (h : EpochsOrdered s) :
    EpochsOrdered (commitGroup frame g s) := by
  intro i v hv
  rw [entry_commitGroup] at hv
  match hs : s.entry i with
  | none => rw [hs] at hv; cases hv
  | some (.fan f) => rw [hs] at hv; cases hv
  | some (.value u) =>
    have law := h i u hs
    rw [hs, commitEntry_value] at hv
    rw [group_commitGroup]
    by_cases own : u.group = g
    · subst own
      rw [if_pos rfl] at hv
      split at hv
      · cases hv; simp [committedRecord, clearSealed]
      · have next := toNat_nextEpoch (s.group u.group).epoch
        split at hv
        · next wrap => cases hv; simp [committedRecord, clearSealed, wrap.1]
        · next wrap =>
          cases hv
          simp only [if_true, committedRecord, clearSealed]
          rw [next]
          split
          · next last =>
            have one : nextEpoch (s.group v.group).epoch = 1#16 := by simp [nextEpoch, last]
            have zero : v.epoch = 0#16 := by simpa [one] using wrap
            simp [zero]
          · omega
    · rw [if_neg own] at hv
      cases hv
      rw [if_neg (Ne.symm own)]
      exact law

/-- Settles O51: each of the three laws is kept by every change, every setup and every commit. -/
theorem stepKeepsTableConsistent : Obligations.StepKeepsTableConsistent := by
  refine ⟨?_, ?_, ?_⟩
  · exact law_step (fun s t h hc => storeAccounted_of_layoutKept h hc.layoutKept (change_entryShaped h.2 hc))
      (fun s t h => setup_storeAccounted h) fun frame g s h _ _ =>
        storeAccounted_of_layoutKept h (layoutKept_commitGroup frame g s) (commit_entryShaped frame g h.2)
  · exact law_step change_limitsHeld setup_limitsHeld fun frame g s h _ _ => commit_limitsHeld frame g s h
  · exact law_step change_epochsOrdered setup_epochsOrdered fun frame g s h _ _ => commit_epochsOrdered frame g s h

end Sys2Proof.Proofs
end

section
namespace Sys2Proof.Proofs

open Sys2Proof Sys2Proof.Machine

/-! ## Groups (R9, R24, R26) -/

theorem groupLegal_discarded {mode : Mode} {r : Group} (h : GroupLegal mode r) :
    GroupLegal mode { clearSealed r with state := .idle } := by
  obtain ⟨quiet, -, -, -⟩ := h
  exact ⟨fun m => ⟨rfl, (quiet m).2⟩, nofun, nofun, fun _ => ⟨rfl, rfl, rfl, rfl, rfl⟩⟩

theorem groupLegal_tornDown (mode : Mode) (r : Group) : GroupLegal mode (tornDown r) :=
  ⟨fun _ => ⟨rfl, rfl, rfl, rfl⟩, nofun, nofun, fun _ => ⟨rfl, rfl, rfl, rfl, rfl⟩⟩

theorem groupLegal_committed (frame : Half) (r : Group) : GroupLegal .running (committedRecord frame r) :=
  ⟨nofun, nofun, nofun, fun _ => ⟨rfl, rfl, rfl, rfl, rfl⟩⟩

/-- In a mode that is neither CONFIG nor STARTING a group may hold what it held. -/
theorem groupLegal_of_working {mode new : Mode} {r : Group} (h : GroupLegal mode r) (config : new ≠ .config)
    (starting : new ≠ .starting) : GroupLegal new r :=
  ⟨fun m => absurd m (not_or.mpr ⟨config, starting⟩), h.2⟩

theorem change_groupsLegal (s t : State) (h : GroupsLegal s) (hc : Change s t) : GroupsLegal t := by
  obtain ⟨legal, staged⟩ := h
  cases hc with
  | aside | works | void | handOn | taken | report | retime | timingFirst | timingStopped => exact ⟨legal, staged⟩
  | regroup g r kept =>
    refine ⟨fun k => ?_, fun i v hv open_ => ?_⟩
    · rw [group_setGroup]
      split
      · exact kept.legal (legal g)
      · exact legal k
    · rw [group_setGroup]
      split
      · next same => exact kept.opened (same ▸ staged i v hv open_)
      · exact staged i v hv open_
  | discard g =>
    refine ⟨fun k => ?_, fun i v hv open_ => ?_⟩
    · rw [group_discardSet]
      split
      · exact groupLegal_discarded (legal g)
      · exact legal k
    · rw [entry_discardSet] at hv
      match hs : s.entry i with
      | none => rw [hs, discardEntry_none] at hv; cases hv
      | some (.fan f) => rw [hs, discardEntry_fan] at hv; cases hv
      | some (.value u) =>
        rw [hs, discardEntry_value] at hv
        cases hv
        by_cases own : u.group = g
        · simp [own] at open_
        · rw [group_discardSet, if_neg (Ne.symm own)]
          exact staged i u hs (by simpa [own] using open_)
  | stage j v words here _ _ opened =>
    refine ⟨legal, fun i u hu open_ => ?_⟩
    rw [entry_setEntry] at hu
    split at hu
    · cases hu; exact opened
    · exact staged i u hu open_
  | unstage j =>
    refine ⟨legal, fun i u hu open_ => ?_⟩
    rw [entry_setEntry] at hu
    split at hu
    · obtain ⟨v, -, rfl⟩ := clearStaged_eq_value hu; exact absurd rfl open_
    · exact staged i u hu open_
  | start _ config =>
    refine ⟨fun g => ?_, staged⟩
    obtain ⟨quiet, rest⟩ := legal g
    exact ⟨fun _ => quiet (.inl config), rest⟩
  | enter mode _ _ entered =>
    refine ⟨fun g => groupLegal_of_working (legal g) ?_ ?_, staged⟩ <;>
      rcases entered with rfl | rfl | ⟨rfl, -⟩ <;> simp
  | enterConfig =>
    refine ⟨fun g => ?_, fun i v hv open_ => ?_⟩
    · rw [group_enterConfig]; exact groupLegal_tornDown _ _
    · rw [entry_enterConfig] at hv
      obtain ⟨u, -, rfl⟩ := clearStaged_eq_value hv
      exact absurd rfl open_

theorem setup_groupsLegal (s t : State) (h : GroupsLegal s) (hs : Setup s t) : GroupsLegal t := by
  refine ⟨fun g => ?_, fun i v hv open_ => ?_⟩
  · cases hs with
    | parameters k =>
      rw [group_modifyGroup]
      split
      · exact h.1 k
      · exact h.1 g
    | reset => exact resetMeetsEveryLaw.groups.1 g
    | define | delete | bundle | frame => exact h.1 g
  · rcases hs.entry_cases i with same | gone | ⟨e, fresh, _, now⟩
    · have opened := h.2 i v (same ▸ hv) open_
      cases hs with
      | parameters k =>
        rw [group_modifyGroup]
        split
        · next same => exact same ▸ opened
        · exact opened
      | reset => rw [entry_deviceReset] at hv; cases hv
      | define | delete | bundle | frame => exact opened
    · rw [gone] at hv; cases hv
    · rw [now] at hv
      cases hv
      exact absurd (fresh.unstaged v rfl).1 open_

/-- A commit leaves no staged value in its group. -/
theorem staged_commitGroup {frame : Half} {g : GroupId} {s : State} {i : Byte} {w : ValueEntry}
    (hw : (commitGroup frame g s).entry i = some (.value w)) (staged : w.staged ≠ none) :
    s.entry i = some (.value w) ∧ w.group ≠ g := by
  rw [entry_commitGroup] at hw
  match hs : s.entry i with
  | none => rw [hs] at hw; cases hw
  | some (.fan f) => rw [hs] at hw; cases hw
  | some (.value v) =>
    rw [hs, commitEntry_value] at hw
    cases hw
    by_cases own : v.group = g
    · rw [if_pos own] at staged
      split at staged
      · exact absurd rfl staged
      · next none_ => split at staged <;> exact absurd none_ staged
    · rw [if_neg own]; exact ⟨rfl, own⟩

theorem commit_groupsLegal (frame : Half) (g : GroupId) (s : State) (h : GroupsLegal s) (running : s.mode = .running) :
    GroupsLegal (commitGroup frame g s) := by
  refine ⟨fun k => ?_, fun i w hw open_ => ?_⟩
  · rw [show (commitGroup frame g s).mode = s.mode by rw [commitGroup_eq], group_commitGroup, running]
    split
    · exact groupLegal_committed _ _
    · exact running ▸ h.1 k
  · obtain ⟨before, other⟩ := staged_commitGroup hw open_
    rw [group_commitGroup, if_neg (Ne.symm other)]
    exact h.2 i w before open_

/-- Settles O54: a change keeps a group that is not IDLE so, or removes its staged values with it. -/
theorem stepKeepsGroupsLegal : Obligations.StepKeepsGroupsLegal :=
  law_step change_groupsLegal setup_groupsLegal fun frame g s h running _ => commit_groupsLegal frame g s h running

/-! ## FANs (R14) -/

theorem fanSound_of_layoutKept {s t : State} (kept : LayoutKept s t) {f : FanEntry} (h : FanSound s f) : FanSound t f := by
  intro i hi
  obtain ⟨v, hv, width, group⟩ := h i hi
  have same := kept.entries i
  rw [hv] at same
  obtain ⟨w, hw, wgroup, wwidth, -⟩ := definition_eq_value same
  exact ⟨w, hw, wwidth.trans width, wgroup.trans group⟩

/-- Where every FAN is sound and the layout stays, every FAN is sound. -/
theorem allSound_of_layoutKept {s t : State} (kept : LayoutKept s t)
    (h : ∀ i f, s.entry i = some (.fan f) → FanSound s f) : ∀ i f, t.entry i = some (.fan f) → FanSound t f := by
  intro i f hf
  have same := kept.entries i
  rw [hf] at same
  exact fanSound_of_layoutKept kept (h i f (definition_eq_fan same.symm))

theorem change_fansSound (s t : State) (h : FansSound s) (hc : Change s t) : FansSound t := by
  intro mode
  refine allSound_of_layoutKept hc.layoutKept ?_
  cases hc with
  | start _ _ sound => exact sound
  | enter _ _ left => exact h left
  | enterConfig => exact absurd (enterConfig_mode s) mode
  | aside | works | regroup | discard | stage | unstage | void | handOn | taken | report | retime | timingFirst
  | timingStopped => exact h mode

/-- After a setup the part is in CONFIG. -/
theorem Setup.config {s t : State} (h : Setup s t) : t.mode = .config := by
  cases h with
  | reset => rfl
  | define _ _ config | delete _ config | parameters _ _ _ _ config | bundle _ _ config | frame _ _ config => exact config

/-! ## Bundles (R86) -/

theorem bundlesLegal_congr {s t : State} (same : t.bundles = s.bundles) (h : BundlesLegal s) : BundlesLegal t := by
  simpa only [BundlesLegal, State.bundle, same] using h

theorem inSet_groupSetOf (gs : List GroupId) (g : GroupId) : inSet (groupSetOf gs) g = true ↔ g ∈ gs := by
  have fold : ∀ (gs : List GroupId) (set : GroupSet), inSet (gs.foldl addTo set) g = true ↔ inSet set g = true ∨ g ∈ gs := by
    intro gs
    induction gs with
    | nil => simp
    | cons k rest ih =>
      intro set
      rw [List.foldl_cons, ih, inSet_addTo]
      rw [Bool.or_eq_true, decide_eq_true_eq, or_assoc, List.mem_cons, eq_comm (a := k)]
  rw [groupSetOf, fold]
  simp [inSet]

theorem exists_mem_ne {α : Type} {l : List α} (nodup : l.Nodup) (many : 1 < l.length) (a : α) : ∃ b ∈ l, b ≠ a := by
  match l, nodup, many with
  | x :: y :: rest, nodup, _ =>
    by_cases h : x = a
    · exact ⟨y, by simp, fun hy => by simp [h, hy] at nodup⟩
    · exact ⟨x, by simp, h⟩

/-- Two sets of groups with no group in both are disjoint as numbers. -/
theorem groupSet_and_eq_zero {a b : GroupSet} (h : ∀ g, inSet a g = true → inSet b g = false) : a &&& b = 0#16 := by
  refine BitVec.eq_of_getLsbD_eq fun i hi => ?_
  have := h ⟨i, hi⟩
  simp only [inSet] at this
  rw [BitVec.getLsbD_and, BitVec.getLsbD_zero]
  cases ha : a.getLsbD i
  · rfl
  · simp [this ha]

theorem setup_bundlesLegal (s t : State) (h : BundlesLegal s) (hs : Setup s t) : BundlesLegal t := by
  cases hs with
  | reset => exact resetMeetsEveryLaw.bundles
  | define | delete | parameters | frame => exact h
  | bundle b gs _ nodup many free =>
    obtain ⟨partners, apart⟩ := h
    refine ⟨fun c g hg => ?_, fun c d hne => ?_⟩
    · rw [bundle_setBundle] at hg ⊢
      split
      · next same =>
        rw [if_pos same, inSet_groupSetOf] at hg
        have : 1 < gs.length := by
          have := List.length_pos_of_mem hg
          omega
        obtain ⟨k, hk, ne⟩ := exists_mem_ne nodup this g
        exact ⟨k, ne, (inSet_groupSetOf gs k).mpr hk⟩
      · next other => rw [if_neg other] at hg; exact partners c g hg
    · have new : ∀ e, e ≠ b → groupSetOf gs &&& s.bundle e = 0#16 := fun e he =>
        groupSet_and_eq_zero fun g hg => free g ((inSet_groupSetOf gs g).mp hg) e he
      rw [bundle_setBundle, bundle_setBundle]
      by_cases hc : b = c
      · rw [if_pos hc, if_neg (fun hd => hne (hc.symm.trans hd))]
        exact new d (fun hd => hne (hc.symm.trans hd.symm))
      · rw [if_neg hc]
        split
        · rw [BitVec.and_comm]; exact new c (Ne.symm hc)
        · exact apart c d hne

/-! ## Frame timing (R122, R123, R130) -/

theorem timingBounded_of_retime {s t : State} (kept : Retime s.timing t.timing) (h : TimingBounded s) : TimingBounded t := by
  obtain ⟨flywheel, low, high⟩ := h
  exact ⟨kept.flywheel flywheel, by rw [kept.period]; exact low, by rw [kept.period]; exact high⟩

theorem setup_timingBounded (s t : State) (h : TimingBounded s) (hs : Setup s t) : TimingBounded t := by
  cases hs with
  | reset => exact resetMeetsEveryLaw.timing
  | frame _ _ _ low high => exact ⟨h.1, low, high⟩
  | define | delete | parameters | bundle => exact h

/-! ## Work in flight (R29, R80, R126, R136) -/

theorem change_stoppedWorkVoid (s t : State) (h : StoppedWorkVoid s) (hc : Change s t) : StoppedWorkVoid t := by
  cases hc with
  | aside | regroup | discard | stage | unstage | taken | report | retime | timingFirst | timingStopped => exact h
  | works _ kept =>
    intro mode w hw kind
    obtain ⟨v, hv, sameKind, sameVoid⟩ := kept w hw
    rw [sameVoid]
    exact h mode v hv (sameKind ▸ kind)
  | start _ config => exact fun _ => h (.inl config)
  | enter mode _ _ entered =>
    rcases entered with rfl | rfl | ⟨rfl, void⟩
    · simp [StoppedWorkVoid]
    · simp [StoppedWorkVoid]
    · exact fun _ w hw _ => void w hw
  | enterConfig =>
    rw [enterConfig_eq]
    intro _ w hw _
    obtain ⟨v, -, rfl⟩ := List.mem_map.mp hw
    rfl
  | void =>
    intro _ w hw _
    obtain ⟨v, -, rfl⟩ := List.mem_map.mp hw
    rfl
  | handOn kind frame due =>
    intro mode w hw runs
    rcases List.mem_append.mp hw with old | new
    · exact h mode w old runs
    · rw [List.mem_singleton.mp new] at runs
      rcases due with running | quiet
      · rw [show s.mode = (handOn kind frame s).mode from rfl] at running
        simp [running] at mode
      · rcases runs with rfl | rfl <;> cases quiet

theorem setup_stoppedWorkVoid (s t : State) (h : StoppedWorkVoid s) (hs : Setup s t) : StoppedWorkVoid t := by
  cases hs with
  | reset => exact resetMeetsEveryLaw.stopped
  | define | delete | parameters | bundle | frame => exact h

theorem change_reportsFresh (s t : State) (h : ReportsFresh s) (hc : Change s t) : ReportsFresh t := by
  obtain ⟨last, fresh⟩ := h
  cases hc with
  | aside | works | regroup | discard | stage | unstage | void | handOn => exact ⟨last, fresh⟩
  | start takenAt config =>
    refine ⟨nofun, fun heard => ⟨nofun, fun _ => .inl ?_⟩⟩
    obtain ⟨nothing, stopped⟩ := (fresh (by simpa using heard)).1 config
    exact ⟨nothing, .inl stopped⟩
  | enter mode _ _ entered =>
    rcases entered with rfl | rfl | ⟨rfl, -⟩ <;> exact ⟨nofun, fun _ => ⟨nofun, nofun⟩⟩
  | enterConfig =>
    refine ⟨fun _ => .inr ?_, fun heard => absurd ?_ heard⟩ <;> simp
  | taken r rest next ignored =>
    refine ⟨last, fun heard => ?_⟩
    obtain ⟨inConfig, inStarting⟩ := fresh heard
    refine ⟨fun mode => ?_, fun mode => ?_⟩
    · rw [next] at inConfig; simpa using (inConfig mode).1
    · rw [next, ignored mode heard] at inStarting; simpa using inStarting mode
  | report r timing _ runs first =>
    refine ⟨last, fun heard => ?_⟩
    obtain ⟨inConfig, inStarting⟩ := fresh heard
    refine ⟨fun mode => absurd (inConfig mode).2 runs, fun mode => .inr ?_⟩
    rcases inStarting mode with ⟨nothing, stopped | isFirst⟩ | head
    · exact absurd stopped runs
    · simp [nothing, first isFirst]
    · simp [head]
  | retime timing _ same =>
    refine ⟨last, fun heard => ?_⟩
    simpa only [same] using fresh heard
  | timingFirst takenAt rest timing next _ now =>
    have behind : s.mode = .config → .enterConfig ∈ rest ∧ rest.getLast? = some .enterConfig := fun mode => by
      rcases last mode with nothing | final
      · rw [next] at nothing; cases nothing
      · rw [next] at final
        cases rest with
        | nil => simp at final
        | cons m rest =>
          rw [List.getLast?_cons_cons] at final
          exact ⟨List.mem_of_getLast? final, final⟩
    refine ⟨fun mode => .inr (behind mode).2, fun heard => ⟨fun mode => absurd (behind mode).1 heard, fun mode => ?_⟩⟩
    rcases (fresh (by rw [next]; simpa using heard)).2 mode with ⟨nothing, -⟩ | head
    · exact .inl ⟨nothing, .inr now⟩
    · exact .inr head
  | timingStopped rest timing next _ now =>
    refine ⟨fun mode => ?_, fun _ => ⟨fun _ => ⟨rfl, now⟩, fun _ => .inl ⟨rfl, .inl now⟩⟩⟩
    rcases last mode with nothing | final
    · rw [next] at nothing; cases nothing
    · rw [next] at final
      cases rest with
      | nil => exact .inl rfl
      | cons m rest => rw [List.getLast?_cons_cons] at final; exact .inr final

theorem setup_reportsFresh (s t : State) (h : ReportsFresh s) (hs : Setup s t) : ReportsFresh t := by
  cases hs with
  | reset => exact resetMeetsEveryLaw.reports
  | define | delete | parameters | bundle | frame => exact h

/-- Settles O55: each of the five laws is kept by every change, every setup and every commit. -/
theorem stepKeepsLayoutAndTimingLegal : Obligations.StepKeepsLayoutAndTimingLegal := by
  have mode : ∀ frame g s, (commitGroup frame g s).mode = s.mode := fun frame g s => by rw [commitGroup_eq]
  refine ⟨?_, ?_, ?_, ?_, ?_⟩
  · exact law_step change_fansSound (fun s t _ hs notConfig => absurd hs.config notConfig) fun frame g s h _ _ working =>
      allSound_of_layoutKept (layoutKept_commitGroup frame g s) (h (mode frame g s ▸ working))
  · exact law_step (fun s t h hc => bundlesLegal_congr hc.layoutKept.bundles h) setup_bundlesLegal fun frame g s h _ _ =>
      bundlesLegal_congr (layoutKept_commitGroup frame g s).bundles h
  · exact law_step (fun s t h hc => timingBounded_of_retime hc.layoutKept.timing h) setup_timingBounded
      fun frame g s h _ _ => timingBounded_of_retime (layoutKept_commitGroup frame g s).timing h
  · refine law_step change_stoppedWorkVoid setup_stoppedWorkVoid fun frame g s _ running _ stopped => ?_
    rw [mode, running] at stopped
    simp at stopped
  · refine law_step change_reportsFresh setup_reportsFresh fun frame g s _ running _ => ?_
    simp [ReportsFresh, mode, running]

/-! ## Active words (R16, R18, R22, R92) -/

/-- What one commit does to the active words of an entry: they stay, or the group was the entry's and the words staged. -/
theorem active_commitGroup {frame : Half} {g : GroupId} {s : State} {i : Byte} {v : ValueEntry}
    (hv : s.entry i = some (.value v)) :
    ∃ w, (commitGroup frame g s).entry i = some (.value w) ∧ w.group = v.group
      ∧ (v.group ≠ g → w = v)
      ∧ (w.active ≠ v.active → v.group = g ∧ v.staged = some w.active ∧ w.staged = none
          ∧ w.epoch = nextEpoch (s.group g).epoch) := by
  refine ⟨_, by rw [entry_commitGroup, hv, commitEntry_value], ?_⟩
  by_cases own : v.group = g
  · rw [if_pos own]
    split
    · next words hw => exact ⟨rfl, fun other => absurd own other, fun _ => ⟨own, hw, rfl, rfl⟩⟩
    · split
      · exact ⟨rfl, fun other => absurd own other, fun changed => absurd rfl changed⟩
      · exact ⟨rfl, fun _ => rfl, fun changed => absurd rfl changed⟩
  · rw [if_neg own]
    exact ⟨rfl, fun _ => rfl, fun changed => absurd rfl changed⟩

theorem nextEpoch_ne (e : Half) : nextEpoch e ≠ e := by
  unfold nextEpoch
  split
  · next last => rw [last]; decide
  · bv_omega

/-- The commits of an evaluation leave the entries of other groups as they are. -/
theorem foldl_commitGroup_other {frame : Half} {gs : List GroupId} {s : State} {i : Byte} {v : ValueEntry}
    (hv : s.entry i = some (.value v)) (other : v.group ∉ gs) :
    (gs.foldl (fun t g => commitGroup frame g t) s).entry i = some (.value v)
      ∧ (gs.foldl (fun t g => commitGroup frame g t) s).group v.group = s.group v.group := by
  induction gs generalizing s with
  | nil => exact ⟨hv, rfl⟩
  | cons g rest ih =>
    obtain ⟨ne, others⟩ := not_or.mp (fun h => other (List.mem_cons.mpr h))
    obtain ⟨w, hw, -, same, -⟩ := active_commitGroup (frame := frame) (g := g) hv
    obtain rfl := same ne
    have keep := ih hw others
    rw [group_commitGroup, if_neg (Ne.symm ne)] at keep
    exact keep

/-- What the commits of an evaluation do to the active words of an entry. -/
theorem foldl_commitGroup_active {frame : Half} {gs : List GroupId} {s : State} {i : Byte} {v w : ValueEntry}
    (nodup : gs.Nodup) (hv : s.entry i = some (.value v))
    (hw : (gs.foldl (fun t g => commitGroup frame g t) s).entry i = some (.value w)) (changed : w.active ≠ v.active) :
    v.group ∈ gs ∧ v.staged = some w.active ∧ w.staged = none
      ∧ ((gs.foldl (fun t g => commitGroup frame g t) s).group v.group).epoch = nextEpoch (s.group v.group).epoch
      ∧ w.epoch = nextEpoch (s.group v.group).epoch := by
  induction gs generalizing s with
  | nil =>
    rw [List.foldl_nil, hv] at hw
    cases hw
    exact absurd rfl changed
  | cons g rest ih =>
    obtain ⟨apart, nodup⟩ := List.nodup_cons.mp nodup
    obtain ⟨u, hu, group, same, commits⟩ := active_commitGroup (frame := frame) (g := g) hv
    rw [List.foldl_cons] at hw ⊢
    by_cases own : v.group = g
    · subst own
      obtain ⟨keep, keepGroup⟩ := foldl_commitGroup_other (gs := rest) (frame := frame) hu (group ▸ apart)
      rw [keep] at hw
      cases hw
      obtain ⟨-, staged, unstaged, epoch⟩ := commits changed
      rw [group] at keepGroup
      refine ⟨List.mem_cons_self, staged, unstaged, ?_, epoch⟩
      rw [keepGroup, group_commitGroup, if_pos rfl]
      rfl
    · obtain rfl := same own
      obtain ⟨mem, staged, unstaged, epoch, entryEpoch⟩ := ih nodup hu hw
      rw [group_commitGroup, if_neg (Ne.symm own)] at epoch entryEpoch
      exact ⟨List.mem_cons_of_mem _ mem, staged, unstaged, epoch, entryEpoch⟩

/-- A VALUE entry whose values are kept has the same active words. -/
theorem active_of_valuesKept {s t : State} (kept : ValuesKept s t) {i : Byte} {v w : ValueEntry}
    (hv : s.entry i = some (.value v)) (hw : t.entry i = some (.value w)) : w.active = v.active := by
  have same := kept.entries i
  rw [hv, hw] at same
  simp only [clearStaged, Option.some.injEq, Entry.value.injEq, ValueEntry.mk.injEq] at same
  obtain ⟨-, -, active, -⟩ := same
  exact active

/-- A setup does not replace a defined entry by another. -/
theorem setUp_active {s u v t : State} (before : Changes s u) (setup : Setup u v) (after : Changes v t) {i : Byte}
    {a b : ValueEntry} (ha : s.entry i = some (.value a)) (hb : t.entry i = some (.value b)) : b.active = a.active := by
  have first := changes_valuesKept before
  have last := changes_valuesKept after
  have same := first.entries i
  rw [ha] at same
  obtain ⟨c, hc, -⟩ := clearStaged_eq_value (w := { a with staged := none }) same
  have midway := last.entries i
  rw [hb] at midway
  obtain ⟨d, hd, -⟩ := clearStaged_eq_value midway.symm
  rcases setup.entry_cases i with kept | gone | ⟨_, _, undefined, _⟩
  · rw [hc, hd] at kept
    cases kept
    exact (active_of_valuesKept last hd hb).trans (active_of_valuesKept first ha hc)
  · rw [hd] at gone; cases gone
  · rw [hc] at undefined; cases undefined

/-- Settles O58: of all happenings only commits change active words. -/
theorem activeWordsChangeOnlyByCommit : Obligations.ActiveWordsChangeOnlyByCommit := by
  intro s t i v w hstep hv hw changed
  cases next : s.pending with
  | nil =>
    rw [step_idle next hstep, hv] at hw
    cases hw
    exact absurd rfl changed
  | cons c rest =>
    cases step_happening next hstep with
    | changed run => exact absurd (active_of_valuesKept (s := { s with pending := rest }) (changes_valuesKept run) hv hw) changed
    | setUp _ before setup after =>
      exact absurd (setUp_active (s := { s with pending := rest }) before setup after hv hw) changed
    | @committed u frame gs running _ _ entries groups nodup due =>
      have hu : u.entry i = some (.value v) := by simpa only [State.entry, entries] using hv
      obtain ⟨mem, staged, unstaged, epoch, entryEpoch⟩ := foldl_commitGroup_active nodup hu hw changed
      obtain ⟨state, sameEpoch⟩ := groups v.group
      refine ⟨running, state.symm.trans (due _ mem), staged, unstaged, entryEpoch.trans epoch.symm, ?_⟩
      rw [epoch, sameEpoch]
      exact nextEpoch_ne _

end Sys2Proof.Proofs
end

section
namespace Sys2Proof.Proofs

open Sys2Proof Sys2Proof.Machine

/-! ## Commands that a block answers (R163) -/

theorem transactionLost_of_hears {s : State} {p : Port} (h : Hears s p) : s.transactionLost p = false := by
  obtain ⟨low, taken⟩ := h
  simp [State.transactionLost, low, taken]

theorem respond_endTransaction (t : State) (p : Port) (tag : Byte) (status : Status) (data : List Byte) :
    (t.endTransaction p).respond p ⟨tag, status, data⟩ = answered p tag status data t := by
  simp [State.respond, State.endTransaction, answered]

/-- A command that is taken, and whose block answers with some state: that state with the answer in the buffer. -/
theorem takeCommand_answered {p : Port} {c : Command} {tag : Byte} {L : Nat} {body : State → Reply} {s t : State}
    {status : Status} {data : List Byte} (taken : Taken s p) (accepted : c.accepts L = true)
    (h : body (s.endTransaction p) = answer (t.endTransaction p) status data) :
    Host.Outcome.next (φ := Fault) (ρ := Refusal) (takeCommand p c tag L body s) = .next (answered p tag status data t) := by
  rw [takeCommand_taken (transactionLost_of_hears taken.1) (.inl taken.2) accepted, h]
  exact congrArg _ (respond_endTransaction t p tag status data)

/-- The same of a layout command, from the claimant in CONFIG (R145). -/
theorem takeCommand_claimed_answered {p : Port} {c : Command} {tag : Byte} {L : Nat} {refusal : State → List Byte}
    {body : State → Reply} {s t : State} {status : Status} {data : List Byte} (taken : Taken s p)
    (accepted : c.accepts L = true) (config : s.mode = .config) (claim : s.claim = some p)
    (h : body (s.endTransaction p) = answer (t.endTransaction p) status data) :
    Host.Outcome.next (φ := Fault) (ρ := Refusal) (takeCommand p c tag L (fun s => claimed p (refusal s) body s) s) =
      .next (answered p tag status data t) := by
  refine takeCommand_answered taken accepted ?_
  simp [claimed, config, claim, h]

/-! ### Argument bytes (R6, R176, R179) -/

@[simp] theorem groupOf_groupByte (g : GroupId) : groupOf (groupByte g) = some g := by
  revert g
  decide

theorem groupOf_eq_none {b : Byte} : groupOf b = none ↔ 16 ≤ b.toNat := by
  simp [groupOf]

theorem writersOf_portSetByte (set : PortSet) : writersOf (portSetByte set) = some set := by
  obtain ⟨p0, p1, p2, p3⟩ := set
  revert p0 p1 p2 p3
  decide

theorem writersOf_of_writersByte {b : Byte} {set : PortSet} (h : WritersByte b set) : writersOf b = some set := by
  rcases h with rfl | ⟨rfl, rfl⟩
  · exact writersOf_portSetByte set
  · rfl

theorem writersOf_eq_none {b : Byte} : writersOf b = none ↔ 16 ≤ b.toNat ∧ b ≠ 0xFF#8 := by
  unfold writersOf
  split
  · next h => simp [h]
  · next h => split <;> simp_all

/-- A code from 05h names no limits and no lack of them (R179). -/
theorem lt_of_limitsCodeOf {b : Byte} (h : limitsCodeOf b ≠ .outOfRange) : b.toNat < 5 := by
  unfold limitsCodeOf at h
  split at h
  · next e => simp [e]
  split at h
  · next e => simp [e]
  split at h
  · next e => simp [e]
  split at h
  · next e => simp [e]
  split at h
  · next e => simp [e]
  · exact absurd rfl h

theorem limitsCodeOf_eq_absent {b : Byte} : limitsCodeOf b = .absent ↔ b = 0x00#8 := by
  unfold limitsCodeOf
  split
  · next e => simp [e]
  · next e => simp only [e, iff_false]; split_ifs <;> simp

end Sys2Proof.Proofs
end

section
namespace Sys2Proof.Proofs

open Sys2Proof Sys2Proof.Machine

/-! ## DEFINE_ENTRY (R11, R12) -/

theorem accepts_defineEntry {n : Nat} (low : 1 ≤ n) (high : n ≤ 6) : Command.defineEntry.accepts (5 + 4 * n) = true := by
  simp [Command.accepts]
  omega

/-- What a DEFINE_ENTRY that is not answered ARGUMENT carries (R11, R176, R179). -/
theorem definedEntry_arguments {group width writers limits : Byte} {words : List Word} {v : ValueEntry}
    (h : definedEntry group width writers limits words = some v) :
    group.toNat < 16 ∧ 1 ≤ width.toNat ∧ width.toNat ≤ 4 ∧ (16 ≤ writers.toNat → writers = 0xFF#8) ∧ limits.toNat < 5
      ∧ (limits = 0x00#8 → words.length = width.toNat)
      ∧ (limits ≠ 0x00#8 → words.length = width.toNat + 2 ∧ width.toNat < 2) := by
  unfold definedEntry at h
  split at h
  · rename_i g ports lim initial hg hw hl
    split at h
    · cases h
    · split at h
      · cases h
      · next len =>
        split at h
        · cases h
        · next single =>
          refine ⟨?_, by omega, by omega, fun high => ?_, ?_⟩
          · exact not_le.mp fun big => by simp [groupOf_eq_none.mpr big] at hg
          · exact not_not.mp fun other => by simp [writersOf_eq_none.mpr ⟨high, other⟩] at hw
          · unfold definedLimits at hl
            split at hl
            · cases hl
            · next code =>
              cases hl
              have zero := limitsCodeOf_eq_absent.mp code
              exact ⟨by simp [zero], fun _ => not_not.mp len, fun other => absurd zero other⟩
            · next kind policy code =>
              have range := lt_of_limitsCodeOf (by rw [code]; simp)
              have present : limits ≠ 0x00#8 := fun zero => by simp [limitsCodeOf_eq_absent.mpr zero] at code
              split at hl
              · split at hl
                · cases hl
                  simp at single len
                  exact ⟨range, fun zero => absurd zero present, fun _ => ⟨by simp; omega, by omega⟩⟩
                · cases hl
              · cases hl
  · cases h

/-- A VALUE entry put into the table, its words taken from the free count (R3, R11). -/
def storeEntry (index : Byte) (v : ValueEntry) (s : State) : State :=
  { s.setEntry index (some (.value v)) with freeWords := s.freeWords - v.width }

section
variable {index group width writers limits : Byte} {words : List Word} {v : ValueEntry} {s : State}

/-! DEFINE_ENTRY of a described entry: ALREADY, RANGE, FULL or OK, in this order (R12). -/

theorem defineEntryBody_already (h : definedEntry group width writers limits words = some v) (defined : s.entry index ≠ none) :
    defineEntryBody index group width writers limits words s = answer s .already (countBytes s.freeWords) := by
  simp [defineEntryBody, h, freeBytes, Option.isSome_iff_ne_none, defined]

theorem defineEntryBody_range (h : definedEntry group width writers limits words = some v) (undefined : s.entry index = none)
    (outside : withinLimits v = false) :
    defineEntryBody index group width writers limits words s = answer s .range (countBytes s.freeWords) := by
  simp [defineEntryBody, h, freeBytes, undefined, outside]

theorem defineEntryBody_full (h : definedEntry group width writers limits words = some v) (undefined : s.entry index = none)
    (inside : withinLimits v = true) (full : s.freeWords < v.width) :
    defineEntryBody index group width writers limits words s = answer s .full (countBytes s.freeWords) := by
  simp [defineEntryBody, h, freeBytes, undefined, inside, full]

theorem defineEntryBody_ok (h : definedEntry group width writers limits words = some v) (undefined : s.entry index = none)
    (inside : withinLimits v = true) (room : v.width ≤ s.freeWords) :
    defineEntryBody index group width writers limits words s =
      answer (storeEntry index v s) .ok (countBytes (s.freeWords - v.width)) := by
  simp [defineEntryBody, h, freeBytes, undefined, inside, not_lt.mpr room, storeEntry]

end

theorem defineEntryBody_of_none {index group width writers limits : Byte} {words : List Word}
    (h : definedEntry group width writers limits words = none) (s : State) :
    defineEntryBody index group width writers limits words s = answer s .argument (countBytes s.freeWords) := by
  simp [defineEntryBody, h, freeBytes]

theorem definedEntry_plain {g : GroupId} {wb : Byte} {set : PortSet} {words : List Word} (writers : WritersByte wb set)
    (low : 1 ≤ words.length) (high : words.length ≤ 4) :
    definedEntry (groupByte g) (BitVec.ofNat 8 words.length) wb 0x00#8 words =
      some { group := g, width := words.length, active := words, staged := none, epoch := 0#16, writers := set,
             limits := none } := by
  have width : (BitVec.ofNat 8 words.length).toNat = words.length := by
    rw [BitVec.toNat_ofNat, Nat.mod_eq_of_lt (by omega)]
  have limits : definedLimits 0x00#8 words = some (none, words) := rfl
  have range : ¬ (words.length < 1 ∨ 4 < words.length) := by omega
  simp only [definedEntry, groupOf_groupByte, writersOf_of_writersByte writers, limits, width, if_neg range]
  simp

/-- Settles O20: the arguments describe one entry, or break a bound that every described entry meets. -/
theorem defineEntryWithoutLimits : Obligations.DefineEntryWithoutLimits := by
  refine ⟨fun p tag index wb g set words s taken config claim writers low high => ?_,
    fun p tag index group width wb code words s taken config claim low high bad => ?_⟩
  · have accepted := accepts_defineEntry low (high.trans (by decide : 4 ≤ 6))
    have described := definedEntry_plain (g := g) writers low high
    split
    · next defined => exact takeCommand_claimed_answered taken accepted config claim (defineEntryBody_already described defined)
    · next undefined =>
      split
      · next full =>
        exact takeCommand_claimed_answered taken accepted config claim
          (defineEntryBody_full described (not_not.mp undefined) rfl full)
      · next room =>
        exact takeCommand_claimed_answered taken accepted config claim
          (defineEntryBody_ok described (not_not.mp undefined) rfl (not_lt.mp room))
  · have none_ : definedEntry group width wb code words = none := by
      rw [Option.eq_none_iff_forall_ne_some]
      intro v h
      obtain ⟨hgroup, hlow, hhigh, hwriters, hcode, hplain, hlimits⟩ := definedEntry_arguments h
      rcases bad with h | h | h | ⟨h, h'⟩ | h | ⟨h, h'⟩ | ⟨h, h'⟩
      · omega
      · simp [h] at hlow
      · omega
      · exact h' (hwriters h)
      · omega
      · exact h' (hplain h)
      · obtain ⟨len, one⟩ := hlimits h
        omega
    exact takeCommand_claimed_answered taken (accepts_defineEntry low high) config claim
      (defineEntryBody_of_none none_ (s.endTransaction p))

/-- The entry of width 1 that a DEFINE_ENTRY with limits describes: none where min is greater than max (R11). -/
theorem definedEntry_limited {g : GroupId} {wb code : Byte} {set : PortSet} {kind : LimitKind} {policy : LimitPolicy}
    (min max w : Word) (writers : WritersByte wb set) (hcode : limitsCodeOf code = .present kind policy) :
    definedEntry (groupByte g) 1#8 wb code [min, max, w] =
      if kind.le min max = true then
        some { group := g, width := 1, active := [w], staged := none, epoch := 0#16, writers := set,
               limits := some ⟨kind, min, max, policy⟩ }
      else none := by
  have limits : definedLimits code [min, max, w] =
      if kind.le min max = true then some (some ⟨kind, min, max, policy⟩, [w]) else none := by
    simp [definedLimits, hcode]
  unfold definedEntry
  rw [groupOf_groupByte, writersOf_of_writersByte writers, limits]
  by_cases ordered : kind.le min max = true <;> simp [ordered]

theorem limitsCodeOf_bools (signed clamps : Bool) :
    limitsCodeOf (if signed then (if clamps then 0x04#8 else 0x03#8) else (if clamps then 0x02#8 else 0x01#8)) =
      .present (if signed then .signed else .unsigned) (if clamps then .clamp else .refuse) := by
  revert signed clamps
  decide

theorem le_bool (signed : Bool) (a b : Word) :
    LimitKind.le (if signed then .signed else .unsigned) a b = true ↔
      if signed then a.toInt ≤ b.toInt else a.toNat ≤ b.toNat := by
  cases signed <;> simp [LimitKind.le]

/-- Settles O21: with the limits' order read through `le_bool`, each answer is one of the `defineEntryBody` lemmas. -/
theorem defineEntryWithLimits : Obligations.DefineEntryWithLimits := by
  intro p tag index wb code g set min max w signed clamps s taken config claim writers hcode le free
  have kindLe : ∀ a b, LimitKind.le (if signed then .signed else .unsigned) a b = true ↔ le a b := le_bool signed
  have undescribed := definedEntry_limited (g := g) min max w writers (hcode ▸ limitsCodeOf_bools signed clamps)
  have accepted := accepts_defineEntry (n := [min, max, w].length) (by simp) (by simp)
  have inside : ∀ kind policy, withinLimits ⟨g, 1, [w], none, 0#16, set, some ⟨kind, min, max, policy⟩⟩ =
      (kind.le min w && kind.le w max) := fun kind policy => by simp [withinLimits, Limits.within]
  have described := fun ordered => undescribed.trans (if_pos ((kindLe min max).mpr ordered))
  refine ⟨fun unordered => ?_, fun ordered defined => ?_, fun ordered undefined outside => ?_,
    fun ordered undefined above below full => ?_, fun ordered undefined above below room => ?_⟩
  · exact takeCommand_claimed_answered taken accepted config claim
      (defineEntryBody_of_none (undescribed.trans (if_neg fun h => unordered ((kindLe min max).mp h))) _)
  · exact takeCommand_claimed_answered taken accepted config claim (defineEntryBody_already (described ordered) defined)
  · refine takeCommand_claimed_answered taken accepted config claim (defineEntryBody_range (described ordered) undefined ?_)
    rw [inside, Bool.eq_false_iff, ne_eq, Bool.and_eq_true, kindLe, kindLe]
    exact outside
  all_goals
    have admitted := (inside (if signed then .signed else .unsigned) (if clamps then .clamp else .refuse)).trans
      (by rw [Bool.and_eq_true, kindLe, kindLe]; exact ⟨above, below⟩)
  · exact takeCommand_claimed_answered taken accepted config claim
      (defineEntryBody_full (described ordered) undefined admitted (Nat.lt_one_iff.mpr full))
  · exact takeCommand_claimed_answered taken accepted config claim
      (defineEntryBody_ok (described ordered) undefined admitted room)

/-! ## DEFINE_FAN and DELETE_ENTRY (R13, R15) -/

theorem accepts_defineFan {n : Nat} (high : n ≤ 4) : Command.defineFan.accepts (3 + n) = true := by
  simp [Command.accepts]
  omega

/-- The FAN that a DEFINE_FAN describes, and when it describes none (R13). -/
theorem definedFan_eq_none {index group wb : Byte} {targets : List Byte}
    (h : 16 ≤ group.toNat ∨ (16 ≤ wb.toNat ∧ wb ≠ 0xFF#8) ∨ targets = [] ∨ ¬ targets.Nodup ∨ index ∈ targets) :
    definedFan index group wb targets = none := by
  unfold definedFan
  split
  · rename_i g ports hg hw
    rcases h with big | bad | empty | dup | own
    · rw [groupOf_eq_none.mpr big] at hg; cases hg
    · rw [writersOf_eq_none.mpr bad] at hw; cases hw
    · simp [empty]
    · simp [dup]
    · simp [own]
  · rfl

theorem definedFan_eq {index wb : Byte} {g : GroupId} {set : PortSet} {targets : List Byte} (writers : WritersByte wb set)
    (some_ : targets ≠ []) (few : targets.length ≤ 4) (nodup : targets.Nodup) (other : index ∉ targets) :
    definedFan index (groupByte g) wb targets = some ⟨g, set, targets⟩ := by
  have low := List.length_pos_iff.mpr some_
  have range : ¬ (targets.length < 1 ∨ 4 < targets.length) := by omega
  simp only [definedFan, groupOf_groupByte, writersOf_of_writersByte writers, if_neg range, if_neg (not_not.mpr nodup),
    if_neg other]

/-- Settles O22: DEFINE_FAN by what its arguments describe, DELETE_ENTRY by what the index holds. -/
theorem fansDefinedAndEntriesDeleted : Obligations.FansDefinedAndEntriesDeleted := by
  refine ⟨fun p tag index group wb targets s taken config claim few => ?_, fun p tag index s taken config claim => ?_⟩
  · have accepted := accepts_defineFan few
    refine ⟨fun bad => ?_, fun g set hgroup writers some_ nodup other => ?_⟩
    · exact takeCommand_claimed_answered taken accepted config claim (by simp [defineFanBody, definedFan_eq_none bad])
    · subst hgroup
      have fan := definedFan_eq (g := g) writers some_ few nodup other
      split
      · next defined =>
        exact takeCommand_claimed_answered taken accepted config claim
          (by simp [defineFanBody, fan, Option.isSome_iff_ne_none, defined])
      · next undefined =>
        refine takeCommand_claimed_answered taken accepted config claim ?_
        simp only [defineFanBody, fan, endTransaction_entry, not_not.mp undefined, Option.isSome_none, Bool.false_eq_true,
          if_false]
        rfl
  · have accepted : Command.deleteEntry.accepts 1 = true := rfl
    split
    · next undefined =>
      exact takeCommand_claimed_answered taken accepted config claim (by simp [deleteEntryBody, undefined, freeBytes])
    · next v here =>
      refine takeCommand_claimed_answered taken accepted config claim ?_
      simp only [deleteEntryBody, endTransaction_entry, here]
      rfl
    · next f here =>
      refine takeCommand_claimed_answered taken accepted config claim ?_
      simp only [deleteEntryBody, endTransaction_entry, here]
      rfl

end Sys2Proof.Proofs
end

section
namespace Sys2Proof.Proofs

open Sys2Proof Sys2Proof.Machine

/-! ## READ (R14, R16) -/

theorem fanTargets_eq_none {s : State} {f : FanEntry} (h : ¬ FanSound s f) : fanTargets s f = none := by
  cases hf : fanTargets s f with
  | none => rfl
  | some targets => exact absurd ((soundEntry_fan s f).mp (by simp [soundEntry, hf])) h

/-- The targets of a FAN, given as the VALUE entries of width 1 in its group that they are (R14). -/
theorem collectTargets_of {s : State} {g : GroupId} {targets : List (Byte × ValueEntry)}
    (h : ∀ x ∈ targets, s.entry x.1 = some (.value x.2) ∧ x.2.width = 1 ∧ x.2.group = g) :
    collectTargets s g (targets.map (·.1)) = some targets := by
  induction targets with
  | nil => rfl
  | cons x rest ih =>
    obtain ⟨⟨here, shaped⟩, others⟩ := List.forall_mem_cons.mp h
    simp [collectTargets, here, shaped, ih others]

/-- The first target of a sound FAN, as the FAN's targets give it (R16). -/
theorem fanTargets_of_sound {s : State} {f : FanEntry} {first : Byte} {more : List Byte} {v : ValueEntry}
    (sound : FanSound s f) (list : f.targets = first :: more) (here : s.entry first = some (.value v)) :
    v.width = 1 ∧ v.group = f.group ∧ ∃ rest, fanTargets s f = some ((first, v) :: rest) := by
  obtain ⟨targets, ht⟩ := Option.isSome_iff_exists.mp ((soundEntry_fan s f).mpr sound)
  obtain ⟨indices, each⟩ := collectTargets_eq_some ht
  match targets with
  | [] => rw [list] at indices; cases indices
  | (i, u) :: rest =>
    rw [list] at indices
    cases indices
    obtain ⟨hu, width, group⟩ := each _ List.mem_cons_self
    rw [here] at hu
    cases hu
    exact ⟨width, group, rest, ht⟩

theorem readItem_undefined {s : State} {i : Byte} (h : s.entry i = none) : readItem s i = .undefined := by
  simp [readItem, h]

theorem readItem_unsound {s : State} {i : Byte} {f : FanEntry} (h : s.entry i = some (.fan f)) (unsound : ¬ FanSound s f) :
    readItem s i = .unsound := by
  simp [readItem, h, fanTargets_eq_none unsound]

/-- READ shows the active words and the epochs of the VALUE entry that the index shows (R16). -/
theorem readItem_shown {s : State} {i : Byte} {v : ValueEntry} (h : ShownBy s i v) :
    readItem s i = .item v.width v.active v.epoch (s.group v.group).epoch := by
  rcases h with here | ⟨f, first, rest, fan, sound, list, here⟩
  · simp [readItem, here]
  · obtain ⟨width, group, _, targets⟩ := fanTargets_of_sound sound list here
    simp [readItem, fan, targets, width, group]

/-- Settles O23: READ answers by what `readItem` finds at the index. -/
theorem readShowsActiveValue : Obligations.ReadShowsActiveValue := by
  intro p tag index s taken
  have accepted : Command.read.accepts 1 = true := rfl
  refine ⟨fun undefined => ?_, fun v here => ?_, fun f first more v fan list here sound => ?_, fun f fan unsound => ?_⟩ <;>
    refine takeCommand_answered taken accepted ?_
  · rw [readReply, readItem_undefined (s := s.endTransaction p) undefined]
  · rw [readReply, readItem_shown (s := s.endTransaction p) (.inl here)]
    rfl
  · obtain ⟨width, group, -⟩ := fanTargets_of_sound sound list here
    rw [readReply, readItem_shown (s := s.endTransaction p) (.inr ⟨f, first, more, fan, sound, list, here⟩), width, group]
    rfl
  · rw [readReply, readItem_unsound (s := s.endTransaction p) fan unsound]

/-! ## READ_SET (R17, R182) -/

/-- The item that READ_SET answers for an index that shows a VALUE entry (R182). -/
def shownItem (s : State) (v : ValueEntry) : Nat × List Word × Half × Half :=
  (v.width, v.active, v.epoch, (s.group v.group).epoch)

theorem readItems_shown {s : State} {shown : List (Byte × ValueEntry)} (h : ∀ x ∈ shown, ShownBy s x.1 x.2) :
    readItems s (shown.map (·.1)) = .ok (shown.map fun x => shownItem s x.2) := by
  induction shown with
  | nil => rfl
  | cons x rest ih =>
    obtain ⟨first, others⟩ := List.forall_mem_cons.mp h
    simp [readItems, readItem_shown first, ih others, shownItem]

/-- The first index that fails decides (R17). -/
theorem readItems_append {s : State} {before : List Byte} (h : ∀ j ∈ before, ∃ v, ShownBy s j v) {rest : List Byte}
    {failed : Status × Byte} (hrest : readItems s rest = .error failed) : readItems s (before ++ rest) = .error failed := by
  induction before with
  | nil => exact hrest
  | cons j before ih =>
    obtain ⟨⟨v, first⟩, others⟩ := List.forall_mem_cons.mp h
    simp [readItems, readItem_shown first, ih others]

theorem readSetData_shown (s : State) (shown : List (Byte × ValueEntry)) :
    readSetData (shown.map fun x => shownItem s x.2) =
      (if ∀ x ∈ shown, x.2.width = 4 then [] else widthMap (shown.map (·.2.width)))
        ++ shown.flatMap (fun x => wordsBytes x.2.active ++ halfBytes x.2.epoch ++ halfBytes (s.group x.2.group).epoch) := by
  have widths : (shown.map fun x => shownItem s x.2).map (·.1) = shown.map (·.2.width) := by simp [shownItem]
  have all : ((shown.map (·.2.width)).all (· == 4) = true) = ∀ x ∈ shown, x.2.width = 4 := by simp
  simp only [readSetData, widths, all, List.flatMap_map]
  rfl

/-! ### The width map -/

/-- The code of the item in a place of the width map, zero past the last item (R182). -/
def codeAt : Option Nat → BitVec 2
  | some w => widthCode w
  | none => 0#2

/-- Four codes in one byte, the first in the most significant bits (R182). -/
def packCodes (a b c d : BitVec 2) : Byte := a ++ b ++ c ++ d

theorem extract_packCodes (a b c d : BitVec 2) :
    (packCodes a b c d).extractLsb' 6 2 = a ∧ (packCodes a b c d).extractLsb' 4 2 = b
      ∧ (packCodes a b c d).extractLsb' 2 2 = c ∧ (packCodes a b c d).extractLsb' 0 2 = d := by
  revert a b c d
  decide +kernel

/-- A width map is a byte of the first four codes, then the map of the other widths (R182). -/
theorem widthMap_cons (w : Nat) (rest : List Nat) :
    widthMap (w :: rest) =
      packCodes (widthCode w) (codeAt rest[0]?) (codeAt rest[1]?) (codeAt rest[2]?) :: widthMap (rest.drop 3) := by
  have zeros : ∀ a b c : BitVec 2, packCodes a 0#2 0#2 0#2 = a ++ 0#6 ∧ packCodes a b 0#2 0#2 = a ++ b ++ 0#4
      ∧ packCodes a b c 0#2 = a ++ b ++ c ++ 0#2 := by decide +kernel
  match rest with
  | [] => simp [widthMap, codeAt, (zeros (widthCode w) 0 0).1]
  | [a] => simp [widthMap, codeAt, (zeros (widthCode w) (widthCode a) 0).2.1]
  | [a, b] => simp [widthMap, codeAt, packCodes]
  | a :: b :: c :: rest => simp [widthMap, codeAt, packCodes]

theorem length_widthMap (widths : List Nat) : (widthMap widths).length = (widths.length + 3) / 4 := by
  match widths with
  | [] => rfl
  | w :: rest =>
    rw [widthMap_cons, List.length_cons, length_widthMap (rest.drop 3), List.length_drop, List.length_cons]
    omega
termination_by widths.length
decreasing_by simp

/-- The code in each place of the width map (R182). -/
theorem extract_widthMap (widths : List Nat) (j : Nat) (b : Byte) (h : (widthMap widths)[j / 4]? = some b) :
    b.extractLsb' (6 - 2 * (j % 4)) 2 = codeAt widths[j]? := by
  match widths with
  | [] => simp [widthMap] at h
  | w :: rest =>
    rw [widthMap_cons] at h
    by_cases first : j < 4
    · rw [Nat.div_eq_of_lt first] at h
      cases h
      obtain ⟨h0, h1, h2, h3⟩ := extract_packCodes (widthCode w) (codeAt rest[0]?) (codeAt rest[1]?) (codeAt rest[2]?)
      match j, first with
      | 0, _ => exact h0
      | 1, _ => exact h1
      | 2, _ => exact h2
      | 3, _ => exact h3
    · obtain ⟨k, rfl⟩ : ∃ k, j = k + 4 := ⟨j - 4, by omega⟩
      rw [Nat.add_div_right k (by decide), List.getElem?_cons_succ] at h
      have ih := extract_widthMap (rest.drop 3) k b h
      rw [List.getElem?_drop] at ih
      rw [Nat.add_mod_right, ih, Nat.add_comm 3 k]
      rfl
termination_by widths.length
decreasing_by simp

theorem accepts_readSet {n : Nat} (low : 1 ≤ n) (high : n ≤ 8) : Command.readSet.accepts n = true := by
  simp [Command.accepts, low, high]

/-- Settles O24: the items by induction on the list, the width map four codes at a time. -/
theorem readSetShowsEveryItem : Obligations.ReadSetShowsEveryItem := by
  refine ⟨fun p tag indices s taken low high => ⟨fun shown list each => ?_, fun before i after list each => ?_⟩,
    fun widths _ => ⟨length_widthMap widths, fun j b h => ?_⟩⟩
  · refine takeCommand_answered taken (accepts_readSet low high) ?_
    rw [readSetReply, list, readItems_shown (s := s.endTransaction p) each]
    simp only [readSetData_shown]
    rfl
  · have failed : ∀ status, readItems (s.endTransaction p) (i :: after) = .error (status, i) →
        exec (.readSet p tag indices) s = .next (answered p tag status [i] s) := fun status h => by
      refine takeCommand_answered taken (accepts_readSet low high) ?_
      rw [readSetReply, list, readItems_append (s := s.endTransaction p) each h]
    refine ⟨fun undefined => failed _ ?_, fun f fan unsound => failed _ ?_⟩
    · rw [readItems, readItem_undefined (s := s.endTransaction p) undefined]
    · rw [readItems, readItem_unsound (s := s.endTransaction p) fan unsound]
  · rw [extract_widthMap widths j b h]
    cases widths[j]? <;> rfl

end Sys2Proof.Proofs
end

section
namespace Sys2Proof.Proofs

open Sys2Proof Sys2Proof.Machine

/-! ## STAGE (R5, R19, R20, R58) -/

theorem accepts_stage {n : Nat} (low : 1 ≤ n) (high : n ≤ 4) : Command.stage.accepts (1 + 4 * n) = true := by
  simp [Command.accepts]
  omega

/-- The table's checks of a STAGE, by the entry found (R19, R20). -/
def stageChecks (p : Port) (index : Byte) (words : List Word) (s : State) : Entry → Reply
  | .value v => stageValue p index words v s
  | .fan f => stageFan p index words f s

/-- STAGE by the lessee of an open set comes to the table's checks (R57, R58). -/
theorem stageReply_of_lessee {p : Port} {index : Byte} {words : List Word} {s : State} {e : Entry}
    (working : s.mode = .running ∨ s.mode = .fault) (here : s.entry index = some e)
    (lease : (s.group e.group).lessee = some p) (unsealed : (s.group e.group).state ≠ .sealed) :
    stageReply p index words s = stageChecks p index words s e := by
  have entered : stageEntry p index words e s = stageChecks p index words s e := by
    rw [stageEntry, withLease, if_pos lease]
    cases state : (s.group e.group).state with
    | sealed => exact absurd state unsealed
    | idle | staging => cases e <;> rfl
  rw [← entered, stageReply]
  rcases working with mode | mode <;> simp only [mode, here]

/-! ### What limits do to words (R5) -/

theorem le_refl (kind : LimitKind) (w : Word) : kind.le w w = true := by
  cases kind <;> simp [LimitKind.le]

theorem admitWord_within {l : Limits} {w : Word} (h : l.within w = true) : admitWord (some l) w = some w := by
  simp [admitWord, h]

theorem admitWord_refuse {l : Limits} {w : Word} (h : l.within w = false) (policy : l.policy = .refuse) :
    admitWord (some l) w = none := by
  simp [admitWord, h, policy]

theorem admitWord_below {l : Limits} {w : Word} (h : l.kind.le l.min w = false) (policy : l.policy = .clamp) :
    admitWord (some l) w = some l.min := by
  simp [admitWord, Limits.within, h, policy, Limits.clamp]

theorem admitWord_above {l : Limits} {w : Word} (above : l.kind.le l.min w = true) (h : l.kind.le w l.max = false)
    (policy : l.policy = .clamp) : admitWord (some l) w = some l.max := by
  simp [admitWord, Limits.within, above, h, policy, Limits.clamp]

theorem admitWords_none (words : List Word) : admitWords none words = some words := by
  induction words with
  | nil => rfl
  | cons w rest ih => simp [admitWords, ih, admitWord]

theorem admitWords_singleton (limits : Option Limits) (w : Word) :
    admitWords limits [w] = (admitWord limits w).map ([·]) := by
  cases h : admitWord limits w <;> simp [admitWords, h]

/-! ### VALUE entries -/

theorem stagedStatus_same (words : List Word) : stagedStatus (words != words) = .ok := by
  rw [bne_self_eq_false]
  rfl

/-- The state that an accepted STAGE of a VALUE entry leaves (R19, R58). -/
def stagedState (index : Byte) (v : ValueEntry) (staged : List Word) (s : State) : State :=
  (s.setEntry index (some (.value { v with staged := some staged }))).setGroup v.group
    { s.group v.group with state := .staging, patience := 0#8 }

theorem stageValue_ok {p : Port} {index : Byte} {words staged : List Word} {v : ValueEntry} (s : State)
    (width : words.length = v.width) (writer : v.writers.get p = true) (admitted : admitWords v.limits words = some staged) :
    stageValue p index words v s =
      answer (stagedState index v staged s) (stagedStatus (staged != words))
        (index :: countByte staged.length :: wordsBytes staged ++ countBytes (stagedCount (stagedState index v staged s) v.group)) := by
  rw [stageValue, if_neg (not_not.mpr width), if_neg (by simp [writer]), admitted]
  rfl

theorem stageValue_range {p : Port} {index : Byte} {words : List Word} {v : ValueEntry} (s : State)
    (width : words.length = v.width) (writer : v.writers.get p = true) (refused : admitWords v.limits words = none) :
    stageValue p index words v s = answer s .range [] := by
  rw [stageValue, if_neg (not_not.mpr width), if_neg (by simp [writer]), refused]

/-- Settles O33: past the checks of R57 the answer is that of `stageValue`, by what the limits make of the words. -/
theorem stageOfValueEntry : Obligations.StageOfValueEntry := by
  intro p tag index words v s taken working here lease unsealed low high accepted
  have reply : stageReply p index words (s.endTransaction p) = stageValue p index words v (s.endTransaction p) :=
    stageReply_of_lessee (e := .value v) working here lease unsealed
  have answers : ∀ {t status data}, stageValue p index words v (s.endTransaction p) = answer (t.endTransaction p) status data →
      exec (.stage p tag index words) s = .next (answered p tag status data t) := fun h =>
    takeCommand_answered taken (accepts_stage low high) (reply.trans h)
  have stages : ∀ {staged}, words.length = v.width → v.writers.get p = true → admitWords v.limits words = some staged →
      exec (.stage p tag index words) s = .next (accepted (stagedStatus (staged != words)) staged) :=
    fun width writer admitted => answers (stageValue_ok _ width writer admitted)
  refine ⟨fun width => ?_, fun width writer => ?_, fun width writer unlimited => ?_, fun l w single width writer limited => ?_⟩
  · exact answers (by rw [stageValue, if_pos width])
  · exact answers (by rw [stageValue, if_neg (not_not.mpr width), if_pos writer])
  · have := stages width writer (unlimited ▸ admitWords_none words)
    rwa [stagedStatus_same] at this
  · subst single
    have words1 : [w].length = v.width := width.symm
    have one : ∀ {x}, admitWord (some l) w = some x →
        exec (.stage p tag index [w]) s = .next (accepted (stagedStatus ([x] != [w])) [x]) := fun h =>
      stages words1 writer (by rw [limited, admitWords_singleton, h]; rfl)
    split
    · next inside =>
      have := one (admitWord_within (by rw [Limits.within, Bool.and_eq_true]; exact inside))
      rwa [stagedStatus_same] at this
    · next outside =>
      have notWithin : l.within w = false := by
        rw [Bool.eq_false_iff, ne_eq, Limits.within, Bool.and_eq_true]
        exact outside
      split
      · next refuse =>
        refine answers (stageValue_range _ words1 writer ?_)
        rw [limited, admitWords_singleton, admitWord_refuse notWithin refuse]
        rfl
      · next clamps =>
        have policy : l.policy = .clamp := by cases h : l.policy <;> simp [h] at clamps ⊢
        split
        · next below =>
          have ne : [l.min] != [w] := by
            simp only [bne_iff_ne, ne_eq, List.cons.injEq, and_true]
            exact fun e => by simp [e, le_refl] at below
          simpa only [ne, stagedStatus, if_true] using one (admitWord_below below policy)
        · next above =>
          have above : l.kind.le l.min w = true := by simpa using above
          have below : l.kind.le w l.max = false := by simpa [above] using outside
          have ne : [l.max] != [w] := by
            simp only [bne_iff_ne, ne_eq, List.cons.injEq, and_true]
            exact fun e => by simp [e, le_refl] at below
          simpa only [ne, stagedStatus, if_true] using one (admitWord_above above below policy)

/-! ### FAN entries -/

theorem writeTargets_eq (s : State) (staged : List (Byte × Word)) :
    writeTargets s staged = { s with entries := (writeTargets s staged).entries } := by
  induction staged generalizing s with
  | nil => rfl
  | cons x rest ih => exact ih (s.setEntry x.1 (writeStaged [x.2] (s.entry x.1)))

theorem writeTargets_endTransaction (s : State) (p : Port) (staged : List (Byte × Word)) :
    writeTargets (s.endTransaction p) staged = (writeTargets s staged).endTransaction p := by
  induction staged generalizing s with
  | nil => rfl
  | cons x rest ih => exact ih (s.setEntry x.1 (writeStaged [x.2] (s.entry x.1)))

/-- A record with a word staged that its limits choose (R20). -/
def stagedBy (word : Option Limits → Word) : Option Entry → Option Entry
  | some (.value v) => some (.value { v with staged := some [word v.limits] })
  | e => e

theorem stagedBy_stagedBy (word : Option Limits → Word) (e : Option Entry) :
    stagedBy word (stagedBy word e) = stagedBy word e := by
  match e with
  | none | some (.value _) | some (.fan _) => rfl

/-- Words staged into the targets of a FAN, each by its own limits, are staged there and nowhere else (R20). -/
theorem entry_writeTargets (word : Option Limits → Word) (targets : List (Byte × ValueEntry)) (s : State)
    (h : ∀ x ∈ targets, ∃ v, s.entry x.1 = some (.value v) ∧ v.limits = x.2.limits) (j : Byte) :
    (writeTargets s (targets.map fun x => (x.1, word x.2.limits))).entry j =
      if j ∈ targets.map (·.1) then stagedBy word (s.entry j) else s.entry j := by
  induction targets generalizing s with
  | nil => simp [writeTargets]
  | cons x rest ih =>
    obtain ⟨⟨v, here, limits⟩, others⟩ := List.forall_mem_cons.mp h
    have write : writeStaged [word x.2.limits] (s.entry x.1) = stagedBy word (s.entry x.1) := by
      rw [here, ← limits]; rfl
    have first : ∀ k, (s.setEntry x.1 (stagedBy word (s.entry x.1))).entry k =
        if x.1 = k then stagedBy word (s.entry k) else s.entry k := fun k => by
      rw [entry_setEntry]
      split
      · next same => rw [same]
      · rfl
    have step := ih (s.setEntry x.1 (stagedBy word (s.entry x.1))) fun y hy => by
      obtain ⟨u, hu, ulimits⟩ := others y hy
      rw [first, hu]
      split
      · exact ⟨_, rfl, ulimits⟩
      · exact ⟨u, rfl, ulimits⟩
    rw [first] at step
    rw [List.map_cons, writeTargets, List.foldl_cons]
    simp only [write]
    refine step.trans ?_
    by_cases same : x.1 = j
    · simp [same, stagedBy_stagedBy]
    · have mem : j ∈ (x :: rest).map (·.1) ↔ j ∈ rest.map (·.1) := by
        simp only [List.map_cons, List.mem_cons, Ne.symm same, false_or]
      simp only [if_neg same, mem]

/-- The word that limits make of an offered one; the offered one where they refuse it. -/
def admittedWord (w : Word) (limits : Option Limits) : Word := (admitWord limits w).getD w

theorem admitTargets_ok {p : Port} {w : Word} {targets : List (Byte × ValueEntry)}
    (h : ∀ x ∈ targets, x.2.writers.get p = true ∧ (admitWord x.2.limits w).isSome = true) :
    admitTargets p w targets = .ok (targets.map fun x => (x.1, admittedWord w x.2.limits)) := by
  induction targets with
  | nil => rfl
  | cons x rest ih =>
    obtain ⟨⟨writer, admitted⟩, others⟩ := List.forall_mem_cons.mp h
    obtain ⟨y, hy⟩ := Option.isSome_iff_exists.mp admitted
    simp [admitTargets, writer, hy, ih others, admittedWord]

/-- The first target that fails decides (R20). -/
theorem admitTargets_append {p : Port} {w : Word} {before rest : List (Byte × ValueEntry)} {failed : Status × Byte}
    (h : ∀ x ∈ before, x.2.writers.get p = true ∧ (admitWord x.2.limits w).isSome = true)
    (hrest : admitTargets p w rest = .error failed) : admitTargets p w (before ++ rest) = .error failed := by
  induction before with
  | nil => exact hrest
  | cons x before ih =>
    obtain ⟨⟨writer, admitted⟩, others⟩ := List.forall_mem_cons.mp h
    obtain ⟨y, hy⟩ := Option.isSome_iff_exists.mp admitted
    simp [admitTargets, writer, hy, ih others]

/-- A word was clamped just where some target's limits do not let it pass as it is. -/
theorem stagedStatus_any {w : Word} {targets : List (Byte × ValueEntry)}
    (h : ∀ x ∈ targets, (admitWord x.2.limits w).isSome = true) :
    stagedStatus ((targets.map fun x => (x.1, admittedWord w x.2.limits)).any fun (_, w') => w' != w) =
      if ∃ x ∈ targets, admitWord x.2.limits w ≠ some w then .clamped else .ok := by
  have each : ∀ x ∈ targets, (admittedWord w x.2.limits ≠ w ↔ admitWord x.2.limits w ≠ some w) := fun x hx => by
    obtain ⟨y, hy⟩ := Option.isSome_iff_exists.mp (h x hx)
    simp [admittedWord, hy]
  have any : ((targets.map fun x => (x.1, admittedWord w x.2.limits)).any fun (_, w') => w' != w) = true ↔
      ∃ x ∈ targets, admitWord x.2.limits w ≠ some w := by
    simp only [List.any_map, List.any_eq_true, Function.comp, bne_iff_ne]
    exact ⟨fun ⟨x, hx, ne⟩ => ⟨x, hx, (each x hx).mp ne⟩, fun ⟨x, hx, ne⟩ => ⟨x, hx, (each x hx).mpr ne⟩⟩
  simp only [stagedStatus, any]

section
variable {p : Port} {index : Byte} {w : Word} {f : FanEntry} {targets : List (Byte × ValueEntry)} {s : State}

theorem stageFan_failed {failed : Status × Byte} (writer : f.writers.get p = true) (sound : fanTargets s f = some targets)
    (fails : admitTargets p w targets = .error failed) :
    stageFan p index [w] f s = answer s failed.1 [failed.2] := by
  simp only [stageFan, writer, Bool.true_eq_false, if_false, sound, fails]

theorem stageFan_ok {staged : List (Byte × Word)} (writer : f.writers.get p = true) (sound : fanTargets s f = some targets)
    (admitted : admitTargets p w targets = .ok staged) :
    stageFan p index [w] f s =
      answer (openStaging f.group (writeTargets s staged)) (stagedStatus (staged.any fun (_, w') => w' != w))
        (countByte staged.length :: staged.flatMap (fun (i, w') => i :: wordBytes w')
          ++ countBytes (stagedCount (openStaging f.group (writeTargets s staged)) f.group)) := by
  simp only [stageFan, writer, Bool.true_eq_false, if_false, sound, admitted]

end

/-! ### Words against limits, as numbers (R5) -/

theorem admitWord_unsigned (min max w : Word) (ordered : min.toNat ≤ max.toNat) :
    admitWord (some ⟨.unsigned, min, max, .clamp⟩) w = some (BitVec.ofNat 32 (Nat.max min.toNat (Nat.min max.toNat w.toNat)))
    ∧ admitWord (some ⟨.unsigned, min, max, .refuse⟩) w =
        if min.toNat ≤ w.toNat ∧ w.toNat ≤ max.toNat then some w else none := by
  have bounds : Nat.max min.toNat (Nat.min max.toNat w.toNat) = Max.max min.toNat (Min.min max.toNat w.toNat) := rfl
  rw [bounds]
  by_cases low : min.toNat ≤ w.toNat
  · by_cases high : w.toNat ≤ max.toNat
    · rw [Nat.min_eq_right high, Nat.max_eq_right low, if_pos ⟨low, high⟩, BitVec.ofNat_toNat, BitVec.setWidth_eq]
      exact ⟨admitWord_within (by simp [Limits.within, LimitKind.le, low, high]),
        admitWord_within (by simp [Limits.within, LimitKind.le, low, high])⟩
    · rw [Nat.min_eq_left (by omega), Nat.max_eq_right ordered, if_neg (fun h => high h.2), BitVec.ofNat_toNat,
        BitVec.setWidth_eq]
      exact ⟨admitWord_above (by simp [LimitKind.le, low]) (by simp [LimitKind.le]; omega) rfl,
        admitWord_refuse (by simp [Limits.within, LimitKind.le]; omega) rfl⟩
  · rw [Nat.max_eq_left (by omega), if_neg (fun h => low h.1), BitVec.ofNat_toNat, BitVec.setWidth_eq]
    exact ⟨admitWord_below (by simp [LimitKind.le]; omega) rfl,
      admitWord_refuse (by simp [Limits.within, LimitKind.le]; omega) rfl⟩

theorem admitWord_signed (min max w : Word) (ordered : min.toInt ≤ max.toInt) :
    admitWord (some ⟨.signed, min, max, .clamp⟩) w = some (BitVec.ofInt 32 (Max.max min.toInt (Min.min max.toInt w.toInt)))
    ∧ admitWord (some ⟨.signed, min, max, .refuse⟩) w =
        if min.toInt ≤ w.toInt ∧ w.toInt ≤ max.toInt then some w else none := by
  by_cases low : min.toInt ≤ w.toInt
  · by_cases high : w.toInt ≤ max.toInt
    · rw [min_eq_right high, max_eq_right low, if_pos ⟨low, high⟩, BitVec.ofInt_toInt]
      exact ⟨admitWord_within (by simp [Limits.within, LimitKind.le, low, high]),
        admitWord_within (by simp [Limits.within, LimitKind.le, low, high])⟩
    · rw [min_eq_left (by omega), max_eq_right ordered, if_neg (fun h => high h.2), BitVec.ofInt_toInt]
      exact ⟨admitWord_above (by simp [LimitKind.le, low]) (by simp [LimitKind.le]; omega) rfl,
        admitWord_refuse (by simp [Limits.within, LimitKind.le]; omega) rfl⟩
  · rw [max_eq_left (by omega), if_neg (fun h => low h.1), BitVec.ofInt_toInt]
    exact ⟨admitWord_below (by simp [LimitKind.le]; omega) rfl,
      admitWord_refuse (by simp [Limits.within, LimitKind.le]; omega) rfl⟩

/-- Settles O34: the targets are judged in order (`admitTargets`), then written in order (`entry_writeTargets`). -/
theorem stageOfFanEntry : Obligations.StageOfFanEntry := by
  refine ⟨fun p tag index words f targets s taken working here lease unsealed low high list each => ?_,
    fun w => ⟨rfl, fun min max => admitWord_unsigned min max w, fun min max => admitWord_signed min max w⟩,
    fun a b l => ⟨by simp [LimitKind.le], by simp [LimitKind.le], by rw [Limits.within, Bool.and_eq_true]⟩⟩
  have reply : stageReply p index words (s.endTransaction p) = stageFan p index words f (s.endTransaction p) :=
    stageReply_of_lessee (e := .fan f) working here lease unsealed
  have answers : ∀ {t status data}, stageFan p index words f (s.endTransaction p) = answer (t.endTransaction p) status data →
      exec (.stage p tag index words) s = .next (answered p tag status data t) := fun h =>
    takeCommand_answered taken (accepts_stage low high) (reply.trans h)
  have sound : fanTargets (s.endTransaction p) f = some targets := by
    rw [fanTargets, list]
    exact collectTargets_of each
  refine ⟨fun many => answers ?_, fun w single => ?_⟩
  · match words, many with
    | [], _ | _ :: _ :: _, _ => rfl
  · subst single
    refine ⟨fun denied => answers (by rw [stageFan, if_pos denied]), fun before i v after writer split passed => ?_,
      fun writer passed => ?_⟩
    · have failed : ∀ status, admitTargets p w ((i, v) :: after) = .error (status, i) →
          exec (.stage p tag index [w]) s = .next (answered p tag status [i] s) := fun status h =>
        answers (stageFan_failed writer sound (split ▸ admitTargets_append passed h))
      exact ⟨fun denied => failed _ (by simp [admitTargets, denied]),
        fun owner refused => failed _ (by simp [admitTargets, owner, refused])⟩
    · have staged := stageFan_ok (index := index) writer sound (admitTargets_ok passed)
      rw [writeTargets_endTransaction] at staged
      refine ⟨_, answers (t := openStaging f.group (writeTargets s _)) staged, ?_, fun j => ?_⟩
      · rw [stagedStatus_any fun x hx => (passed x hx).2, List.length_map, List.flatMap_map]
        conv_lhs => rw [writeTargets_eq]
        rfl
      · have entries := entry_writeTargets (admittedWord w) targets s (fun x hx => ⟨x.2, (each x hx).1, rfl⟩) j
        refine entries.trans ?_
        rw [← list]
        match s.entry j with
        | none | some (.fan _) => simp [stagedBy]
        | some (.value v) => split <;> rfl

end Sys2Proof.Proofs
end

section
namespace Sys2Proof.Proofs

open Sys2Proof Sys2Proof.Machine

/-! ## The commit of a group (R92 to R94) -/

theorem get_owing (subscriptions : PerPort Subscription) (marked : Bool) (q : Port) :
    (owing subscriptions marked).get q =
      (subscriptions.get q == .ackAll || (subscriptions.get q == .ackMarked && marked)) := by
  rw [owing, PerPort.get_ofFun]
  cases subscriptions.get q <;> simp

theorem toldOfCommit_eq (r : Group) (q : Port) :
    toldOfCommit r q = (r.subscriptions.get q == .observe || r.subscriptions.get q == .ackAll
      || r.subscriptions.get q == .ackMarked || r.sealer == some q) := by
  rw [toldOfCommit]
  cases r.subscriptions.get q <;> simp

theorem nodup_portAll : Port.all.Nodup := by decide

/-- Notices to different ports: one for each that is ONLINE (R170, R171). -/
theorem portUnit_notifyEach {ports : List Port} (nodup : ports.Nodup) (s : State) (n : Port → Notice) (q : Port) :
    (s.notifyEach ports n).portUnit q =
      if q ∈ ports ∧ s.isOnline q = true then
        { s.portUnit q with queue := enqueue (s.portUnit q).queue (n q) s.timing.frameNumber }
      else s.portUnit q := by
  induction ports generalizing s with
  | nil => simp [State.notifyEach]
  | cons p rest ih =>
    obtain ⟨apart, nodup⟩ := List.nodup_cons.mp nodup
    have step := ih nodup (s.notify p (n p))
    rw [isOnline_notify, notify_timing, portUnit_notify] at step
    refine step.trans ?_
    by_cases same : p = q
    · subst same
      simp [apart, State.isOnline]
    · simp [same, Ne.symm same]

/-- The ports that a commit tells, and what it tells them (R94). -/
theorem portUnit_commitGroup (frame : Half) (g : GroupId) (s : State) (q : Port) :
    (commitGroup frame g s).portUnit q =
      if toldOfCommit (s.group g) q = true ∧ s.isOnline q = true then
        { s.portUnit q with
          queue := enqueue (s.portUnit q).queue
            (.committed g (nextEpoch (s.group g).epoch) (s.group g).marked
              ((owing (s.group g).subscriptions (s.group g).marked).get q)) s.timing.frameNumber }
      else s.portUnit q := by
  refine (portUnit_notifyEach (nodup_portAll.filter _) _ _ q).trans ?_
  simp only [List.mem_filter, Port.mem_all, true_and]
  rfl

theorem boundaries_commitGroup {frame : Half} {g : GroupId} {s : State} {before after : List BoundaryWork} {w : BoundaryWork}
    (split : s.boundaries = before ++ w :: after) (closed : ∀ x ∈ before, x.closed = true) (open_ : w.closed = false) :
    (commitGroup frame g s).boundaries =
      before.map (fun x => { x with committed := addTo x.committed g })
        ++ { w with committed := addTo w.committed g } :: after := by
  rw [commitGroup_eq]
  simp only [split]
  exact modifyThrough_append _ _ before after w (fun x hx => by simp [BoundaryWork.unclosed, closed x hx])
    (by simp [BoundaryWork.unclosed, open_])

/-- Settles O40, record by record: groups, entries, port queues, and the boundaries in flight. -/
theorem commitMakesSetActive : Obligations.CommitMakesSetActive := by
  intro frame g s r epoch owes told t
  have owed : ∀ q, (owing r.subscriptions r.marked).get q = owes q := get_owing r.subscriptions r.marked
  refine ⟨?_, fun h => ?_, fun i => ?_, fun q => ?_, fun before w after => boundaries_commitGroup⟩
  · have works : t.boundaries = _ := congrArg State.boundaries (commitGroup_eq frame g s)
    rw [works]
    exact commitGroup_eq frame g s
  · have outstanding : owing r.subscriptions r.marked = ⟨owes .p0, owes .p1, owes .p2, owes .p3⟩ :=
      PerPort.ext_get fun q => by rw [owed]; cases q <;> rfl
    rw [group_commitGroup]
    by_cases same : g = h
    · rw [if_pos same, if_pos same.symm, ← outstanding]
      rfl
    · rw [if_neg same, if_neg (Ne.symm same)]
  · rw [entry_commitGroup]
    match s.entry i with
    | none | some (.fan _) => rfl
    | some (.value v) =>
      rw [commitEntry_value]
      by_cases own : v.group = g
      · simp only [own, if_true, ne_eq, not_true, if_false]
        rfl
      · simp only [own, if_false, ne_eq, not_false_iff, if_true]
  · rw [portUnit_commitGroup, toldOfCommit_eq, owed]
    rfl

/-! ## START (R14, R146, R147) -/

theorem notify_online {s : State} {p : Port} (n : Notice) (h : (s.portUnit p).session = .online) :
    s.notify p n = s.setPort p { s.portUnit p with queue := enqueue (s.portUnit p).queue n s.timing.frameNumber } :=
  if_pos h

theorem setPort_comm (s : State) {p q : Port} (h : p ≠ q) (u v : PortUnit) :
    (s.setPort p u).setPort q v = (s.setPort q v).setPort p u := by
  have ports : (s.ports.set p u).set q v = (s.ports.set q v).set p u := PerPort.ext_get fun k => by
    simp only [PerPort.get_set]
    by_cases hq : q = k
    · rw [if_pos hq, if_neg (fun hp => h (hp.trans hq.symm)), if_pos hq]
    · rw [if_neg hq, if_neg hq]
  simp only [State.setPort, ports]

theorem notify_endTransaction (s : State) (p q : Port) (n : Notice) :
    (s.endTransaction p).notify q n = (s.notify q n).endTransaction p := by
  by_cases same : p = q
  · subst same
    have session : ((s.endTransaction p).portUnit p).session = (s.portUnit p).session := by
      rw [portUnit_endTransaction, if_pos rfl]
    cases online : (s.portUnit p).session with
    | offline => rw [notify_offline n online, notify_offline n (session.trans online)]
    | online =>
      rw [notify_online n online, notify_online n (session.trans online)]
      simp [State.endTransaction]
  · have unit : (s.endTransaction p).portUnit q = s.portUnit q := by rw [portUnit_endTransaction, if_neg same]
    cases online : (s.portUnit q).session with
    | offline => rw [notify_offline n online, notify_offline n (unit ▸ online)]
    | online =>
      rw [notify_online n online, notify_online n (unit ▸ online), unit]
      simp only [State.endTransaction, portUnit_setPort, if_neg (Ne.symm same)]
      exact setPort_comm s same _ _

theorem notifyEach_endTransaction (s : State) (p : Port) (ports : List Port) (n : Port → Notice) :
    (s.endTransaction p).notifyEach ports n = (s.notifyEach ports n).endTransaction p := by
  unfold State.notifyEach
  induction ports generalizing s with
  | nil => rfl
  | cons q rest ih => rw [List.foldl_cons, notify_endTransaction, ih, List.foldl_cons]

theorem tellTiming_notifyEach (m : ModeMessage) (s : State) (ports : List Port) (n : Port → Notice) :
    tellTiming m (s.notifyEach ports n) = (tellTiming m s).notifyEach ports n := by
  have one : ∀ (s : State) p n, tellTiming m (s.notify p n) = (tellTiming m s).notify p n := fun s p n => by
    cases online : (s.portUnit p).session with
    | offline => rw [notify_offline n online, notify_offline (s := tellTiming m s) n online]
    | online => rw [notify_online n online, notify_online (s := tellTiming m s) n online]; rfl
  unfold State.notifyEach
  induction ports generalizing s with
  | nil => rfl
  | cons q rest ih => rw [List.foldl_cons, ih, one, List.foldl_cons]

/-- The first index of a FAN that is not sound (R14). -/
theorem firstUnsound_eq_some {s : State} {i : Byte} {f : FanEntry} (here : s.entry i = some (.fan f))
    (unsound : ¬ FanSound s f)
    (first : ∀ (j : Byte) (e : FanEntry), j.toNat < i.toNat → s.entry j = some (.fan e) → FanSound s e) :
    firstUnsound s = some i := by
  have fails : soundEntry s (s.entry i) = false := by
    rw [here, Bool.eq_false_iff, ne_eq, soundEntry_fan]
    exact unsound
  have passes : ∀ j : Byte, j.toNat < i.toNat → soundEntry s (s.entry j) = true := fun j hj => by
    match hs : s.entry j with
    | none | some (.value _) => rfl
    | some (.fan e) => exact (soundEntry_fan s e).mpr (first j e hj hs)
  rw [firstUnsound, allIndices, List.find?_map]
  have found : (List.range 256).find? ((fun i => !soundEntry s (s.entry i)) ∘ BitVec.ofNat 8) = some i.toNat := by
    refine List.find?_range_eq_some.mpr ⟨by simp [fails], by simpa using i.isLt, fun j hj => ?_⟩
    have := passes (BitVec.ofNat 8 j) (by have := i.isLt; simp; omega)
    simp [this]
  rw [found, Option.map_some, BitVec.ofNat_toNat, BitVec.setWidth_eq]

/-- Settles O16: the soundness search finds the first unsound FAN, or none and the mode changes. -/
theorem startEntersStarting : Obligations.StartEntersStarting := by
  intro p tag s taken config claim
  have accepted : Command.start.accepts 0 = true := rfl
  refine ⟨fun sound => ?_, fun i f here unsound first => ?_⟩ <;>
    refine takeCommand_claimed_answered (refusal := fun _ => []) taken accepted config claim ?_
  · rw [startBody, (firstUnsound_eq_none (s.endTransaction p)).mpr sound]
    simp only [changeMode, State.notifyMode, tellTiming_notifyEach]
    rw [← notifyEach_endTransaction, show (s.endTransaction p).mode = .config from config]
    simp only [endTransaction_timing]
    cases s.timing.source <;> rfl
  · rw [startBody, firstUnsound_eq_some (s := s.endTransaction p) here unsound first]

end Sys2Proof.Proofs
end

section
namespace Sys2Proof.Proofs

open Sys2Proof Sys2Proof.Machine

/-! ## The checks that the commands of writers share (R41, R56, R57)

LEASE, RELEASE, STAGE, UNSTAGE, SEAL, UNSEAL and READ_STAGED look at the mode, then at the group or the entry named, then
at what they own. Each check is said once here, and each command's reply is tied to its checks by an equation. -/

/-- The modes in which LEASE, STAGE, UNSTAGE, SEAL and UNSEAL are taken (R41, R57). -/
def working (m : Mode) : Bool := m == .running || m == .fault

/-- The modes in which RELEASE and READ_STAGED are taken (R41, R57). -/
def serving (m : Mode) : Bool := working m || m == .stopping

theorem working_eq_true {m : Mode} (h : m = .running ∨ m = .fault) : working m = true := by
  rcases h with rfl | rfl <;> rfl

theorem working_eq_false {m : Mode} (running : m ≠ .running) (fault : m ≠ .fault) : working m = false := by
  simp [working, running, fault]

theorem serving_eq_true {m : Mode} (config : m ≠ .config) (starting : m ≠ .starting) : serving m = true := by
  cases m with
  | config => exact absurd rfl config
  | starting => exact absurd rfl starting
  | running | stopping | fault => rfl

theorem serving_eq_false {m : Mode} (h : m = .config ∨ m = .starting) : serving m = false := by
  rcases h with rfl | rfl <;> rfl

/-- MODE outside the modes of a command. -/
def modeChecked (modes : Mode → Bool) (body : State → Reply) (s : State) : Reply :=
  if modes s.mode then body s else answer s .mode []

/-- ARGUMENT for a group above 15. -/
def groupChecked (group : Byte) (body : GroupId → State → Reply) (s : State) : Reply :=
  match groupOf group with
  | none => answer s .argument []
  | some g => body g s

/-- NOENTRY for an undefined index. -/
def entryChecked (index : Byte) (body : Entry → State → Reply) (s : State) : Reply :=
  match s.entry index with
  | none => answer s .noEntry [index]
  | some e => body e s

section
variable {p : Port} {c : Command} {tag group index : Byte} {g : GroupId} {e : Entry} {L : Nat} {modes : Mode → Bool}
  {body checks : State → Reply} {ofGroup : GroupId → State → Reply} {ofEntry : Entry → State → Reply} {s t : State}
  {status : Status} {data : List Byte}

/-- A command that comes outside its modes. -/
theorem takeCommand_mode (taken : Taken s p) (accepted : c.accepts L = true) (reply : body = modeChecked modes checks)
    (closed : modes s.mode = false) :
    Host.Outcome.next (φ := Fault) (ρ := Refusal) (takeCommand p c tag L body s) = .next (answered p tag .mode [] s) := by
  refine takeCommand_answered taken accepted ?_
  rw [reply]
  exact if_neg (Bool.eq_false_iff.mp closed)

/-- A command that comes in its modes is answered by its further checks. -/
theorem takeCommand_checked (taken : Taken s p) (accepted : c.accepts L = true) (reply : body = modeChecked modes checks)
    (admits : modes s.mode = true) (h : checks (s.endTransaction p) = answer (t.endTransaction p) status data) :
    Host.Outcome.next (φ := Fault) (ρ := Refusal) (takeCommand p c tag L body s) = .next (answered p tag status data t) := by
  refine takeCommand_answered taken accepted (Eq.trans ?_ h)
  rw [reply]
  exact if_pos admits

/-- A command of a group above 15. -/
theorem takeCommand_groupArgument (taken : Taken s p) (accepted : c.accepts L = true)
    (reply : body = modeChecked modes (groupChecked group ofGroup)) (admits : modes s.mode = true)
    (high : 16 ≤ group.toNat) :
    Host.Outcome.next (φ := Fault) (ρ := Refusal) (takeCommand p c tag L body s) =
      .next (answered p tag .argument [] s) := by
  refine takeCommand_checked taken accepted reply admits ?_
  rw [groupChecked, groupOf_eq_none.mpr high]

/-- A command of one of the groups G0 to G15. -/
theorem takeCommand_group (taken : Taken s p) (accepted : c.accepts L = true)
    (reply : body = modeChecked modes (groupChecked (groupByte g) ofGroup)) (admits : modes s.mode = true)
    (h : ofGroup g (s.endTransaction p) = answer (t.endTransaction p) status data) :
    Host.Outcome.next (φ := Fault) (ρ := Refusal) (takeCommand p c tag L body s) = .next (answered p tag status data t) := by
  refine takeCommand_checked taken accepted reply admits (Eq.trans ?_ h)
  rw [groupChecked, groupOf_groupByte]

/-- A command of an undefined index. -/
theorem takeCommand_noEntry (taken : Taken s p) (accepted : c.accepts L = true)
    (reply : body = modeChecked modes (entryChecked index ofEntry)) (admits : modes s.mode = true)
    (undefined : s.entry index = none) :
    Host.Outcome.next (φ := Fault) (ρ := Refusal) (takeCommand p c tag L body s) =
      .next (answered p tag .noEntry [index] s) := by
  refine takeCommand_checked taken accepted reply admits ?_
  rw [entryChecked, endTransaction_entry, undefined]

/-- A command of a defined entry. -/
theorem takeCommand_entry (taken : Taken s p) (accepted : c.accepts L = true)
    (reply : body = modeChecked modes (entryChecked index ofEntry)) (admits : modes s.mode = true)
    (here : s.entry index = some e) (h : ofEntry e (s.endTransaction p) = answer (t.endTransaction p) status data) :
    Host.Outcome.next (φ := Fault) (ρ := Refusal) (takeCommand p c tag L body s) = .next (answered p tag status data t) := by
  refine takeCommand_checked taken accepted reply admits (Eq.trans ?_ h)
  rw [entryChecked, endTransaction_entry, here]

end

/-! ### The checks of each command -/

theorem leaseReply_eq (p : Port) (group : Byte) :
    leaseReply p group = modeChecked working (groupChecked group (leaseGroup p)) := by
  funext s
  unfold leaseReply modeChecked
  cases s.mode <;> rfl

theorem releaseReply_eq (p : Port) (group : Byte) :
    releaseReply p group = modeChecked serving (groupChecked group (releaseGroup p)) := by
  funext s
  unfold releaseReply modeChecked
  cases s.mode <;> rfl

theorem stageReply_eq (p : Port) (index : Byte) (words : List Word) :
    stageReply p index words = modeChecked working (entryChecked index (stageEntry p index words)) := by
  funext s
  unfold stageReply modeChecked
  cases s.mode <;> rfl

theorem unstageReply_eq (p : Port) (index : Byte) :
    unstageReply p index = modeChecked working (entryChecked index (unstageEntry p index)) := by
  funext s
  unfold unstageReply modeChecked
  cases s.mode <;> rfl

theorem unsealReply_eq (p : Port) (group : Byte) :
    unsealReply p group = modeChecked working (groupChecked group (unsealGroup p)) := by
  funext s
  unfold unsealReply modeChecked
  cases s.mode <;> rfl

theorem readStagedReply_eq (p : Port) (index : Byte) :
    readStagedReply p index = modeChecked serving (entryChecked index (readStagedEntry p index)) := by
  funext s
  unfold readStagedReply modeChecked
  cases s.mode <;> rfl

/-- SEAL after the mode: a bad flag and a delay above 15 are ARGUMENT as a group above 15 is (R63). -/
def sealChecked (p : Port) (delay marked : Byte) (g : GroupId) (s : State) : Reply :=
  match flagOf marked with
  | none => answer s .argument []
  | some m => if 15 < delay.toNat then answer s .argument [] else sealGroup p g delay m s

theorem sealReply_eq (p : Port) (group delay marked : Byte) :
    sealReply p group delay marked = modeChecked working (groupChecked group (sealChecked p delay marked)) := by
  funext s
  unfold sealReply modeChecked groupChecked sealChecked
  cases groupOf group <;> cases flagOf marked <;> cases s.mode <;> rfl

end Sys2Proof.Proofs
end

section
namespace Sys2Proof.Proofs

open Sys2Proof Sys2Proof.Machine

/-! ## LEASE (R41, R42) -/

/-! ### A port's place (R41) -/

theorem placeByte_lessee {r : Group} {p : Port} (h : r.lessee = some p) : placeByte r p = 0#8 :=
  if_pos h

/-- A waiting port's place is one more than the number of ports before it. -/
theorem placeByte_waiting {r : Group} {p : Port} {ahead behind : List Port} (other : r.lessee ≠ some p)
    (queue : r.waitQueue = ahead ++ p :: behind) (first : p ∉ ahead) :
    placeByte r p = BitVec.ofNat 8 (ahead.length + 1) := by
  have found : r.waitQueue.idxOf? p = some ahead.length := by
    rw [queue, List.idxOf?_eq_some_iff]
    exact ⟨by simp, by simp, fun j before => by
      rw [List.getElem_append_left before]
      exact fun same => first (same ▸ List.getElem_mem before)⟩
  rw [placeByte, if_neg other, found]
  rfl

theorem placeByte_neither {r : Group} {p : Port} (other : r.lessee ≠ some p) (absent : p ∉ r.waitQueue) :
    placeByte r p = 0xFF#8 := by
  rw [placeByte, if_neg other, List.idxOf?_eq_none_iff.mpr absent]

/-! ### LEASE by the caller's standing -/

section
variable {p q : Port} {g : GroupId} {s : State}

theorem leaseGroup_free (h : (s.group g).lessee = none) :
    leaseGroup p g s =
      answer (s.setGroup g { s.group g with lessee := some p, patience := 0#8 }) .ok [groupByte g, portByte p, 0#8] := by
  simp [leaseGroup, h, leaseData, placeByte_lessee, optionalPort]

theorem leaseGroup_lessee (h : (s.group g).lessee = some p) :
    leaseGroup p g s = answer s .already [groupByte g, portByte p, 0#8] := by
  simp [leaseGroup, h, leaseData, placeByte_lessee, optionalPort]

theorem leaseGroup_waiting {ahead behind : List Port} (held : (s.group g).lessee = some q) (other : q ≠ p)
    (queue : (s.group g).waitQueue = ahead ++ p :: behind) (first : p ∉ ahead) :
    leaseGroup p g s = answer s .already [groupByte g, portByte q, BitVec.ofNat 8 (ahead.length + 1)] := by
  have place := placeByte_waiting (by simp [held, other]) queue first
  simp [leaseGroup, held, queue, leaseData, place, optionalPort]

theorem leaseGroup_other (held : (s.group g).lessee = some q) (other : q ≠ p) (absent : p ∉ (s.group g).waitQueue) :
    leaseGroup p g s =
      answer (s.setGroup g { s.group g with waitQueue := (s.group g).waitQueue ++ [p] }) .queued
        [groupByte g, portByte q, BitVec.ofNat 8 ((s.group g).waitQueue.length + 1)] := by
  have place := placeByte_waiting (r := { s.group g with waitQueue := (s.group g).waitQueue ++ [p] }) (behind := [])
    (by simp [held, other]) rfl absent
  simp only [held] at place
  simp [leaseGroup, held, other, absent, leaseData, place, optionalPort]

end

/-- Settles O29: past the mode and the group the answer is that of `leaseGroup`, by the caller's standing. -/
theorem leaseByModeAndStanding : Obligations.LeaseByModeAndStanding := by
  have accepted : Command.lease.accepts 1 = true := rfl
  refine ⟨fun p tag group s taken => ⟨fun running fault => ?_, fun admits high => ?_⟩, fun p tag g s taken admits => ?_⟩
  · exact takeCommand_mode taken accepted (leaseReply_eq p group) (working_eq_false running fault)
  · exact takeCommand_groupArgument taken accepted (leaseReply_eq p group) (working_eq_true admits) high
  · have answers : ∀ {t status data}, leaseGroup p g (s.endTransaction p) = answer (t.endTransaction p) status data →
        exec (.lease p tag (groupByte g)) s = .next (answered p tag status data t) :=
      takeCommand_group taken accepted (leaseReply_eq p _) (working_eq_true admits)
    exact ⟨fun free => answers (leaseGroup_free (s := s.endTransaction p) free),
      fun lessee => answers (leaseGroup_lessee (s := s.endTransaction p) lessee),
      fun q ahead behind held other queue first =>
        answers (leaseGroup_waiting (s := s.endTransaction p) held other queue first),
      fun q held other absent => answers (leaseGroup_other (s := s.endTransaction p) held other absent)⟩

/-! ## RELEASE (R41, R43, R44, R45, R72) -/

/-! ### A lease given up (R43) -/

theorem freeLease_endTransaction (g : GroupId) (event : FreeingEvent) (s : State) (p : Port) :
    freeLease g event (s.endTransaction p) = (freeLease g event s).endTransaction p := by
  cases queue : (s.group g).waitQueue with
  | nil => rw [freeLease_nil queue, freeLease_nil (s := s.endTransaction p) queue]; rfl
  | cons next rest =>
    rw [freeLease_cons queue, freeLease_cons (s := s.endTransaction p) queue, ← notify_endTransaction]
    rfl

/-- The state whose lease a lessee passes on: a STAGING set is discarded, an IDLE group and a SEALED set stay (R43). -/
def stagingDiscarded (g : GroupId) (s : State) : State :=
  if (s.group g).state == .staging then discardSet g s else s

theorem giveUpLease_eq (g : GroupId) (event : FreeingEvent) (s : State) :
    giveUpLease g event s = freeLease g event (stagingDiscarded g s) := by
  simp [giveUpLease, stagingDiscarded]

theorem waitQueue_stagingDiscarded (g : GroupId) (s : State) :
    ((stagingDiscarded g s).group g).waitQueue = (s.group g).waitQueue := by
  unfold stagingDiscarded
  split
  · rw [group_discardSet, if_pos rfl]; rfl
  · rfl

theorem stagingDiscarded_endTransaction (g : GroupId) (s : State) (p : Port) :
    stagingDiscarded g (s.endTransaction p) = (stagingDiscarded g s).endTransaction p := by
  unfold stagingDiscarded
  exact (apply_ite (State.endTransaction · p) (((s.group g).state == .staging) = true) (discardSet g s) s).symm

/-- RELEASE by the lessee: the lease goes to the head of the queue, or to no port (R43, R45). -/
theorem releaseGroup_lessee {p : Port} {g : GroupId} {s : State} (lease : (s.group g).lessee = some p) :
    releaseGroup p g s =
      answer (freeLease g .release (stagingDiscarded g s)) .ok
        [groupByte g, optionalPort (s.group g).waitQueue.head?, 0xFF#8, flagByte ((s.group g).state == .staging)] := by
  rw [releaseGroup, if_pos lease]
  simp only [giveUpLease_eq, group_freeLease, if_true, waitQueue_stagingDiscarded]

/-- Settles O30: the lease is passed on (`freeLease_nil`, `freeLease_cons`) past a discard (`discardSet_eq`). -/
theorem releaseByLesseePassesLease : Obligations.ReleaseByLesseePassesLease := by
  refine ⟨?_, fun g s => ⟨discardSet_eq g s, fun h => ?_, fun i => ?_⟩⟩
  · intro p tag g s taken config starting lease discards u
    have accepted : Command.release.accepts 1 = true := rfl
    have queue : (u.group g).waitQueue = (s.group g).waitQueue := waitQueue_stagingDiscarded g s
    have released : exec (.release p tag (groupByte g)) s = .next (answered p tag .ok
        [groupByte g, optionalPort (s.group g).waitQueue.head?, 0xFF#8, flagByte discards] (freeLease g .release u)) := by
      refine takeCommand_group taken accepted (releaseReply_eq p _) (serving_eq_true config starting) ?_
      rw [releaseGroup_lessee (s := s.endTransaction p) lease, stagingDiscarded_endTransaction, freeLease_endTransaction]
      rfl
    refine ⟨fun empty => ?_, fun q rest waiting => ?_⟩
    · rw [released, freeLease_nil (queue.trans empty), empty]
      rfl
    · rw [released, freeLease_cons (queue.trans waiting), waiting]
      rfl
  · rw [group_discardSet]
    by_cases same : g = h
    · subst same
      rw [if_pos rfl, if_pos rfl]
      rfl
    · rw [if_neg same, if_neg (Ne.symm same)]
  · rw [entry_discardSet]
    match s.entry i with
    | none => exact discardEntry_none g
    | some (.fan f) => exact discardEntry_fan g f
    | some (.value v) =>
      refine (discardEntry_value g v).trans ?_
      by_cases own : v.group = g <;> simp [own]

/-! ### RELEASE by a port that is not the lessee (R44) -/

section
variable {p : Port} {g : GroupId} {s : State}

theorem filter_ne_append_cons {ahead behind : List Port} (before : p ∉ ahead) (after : p ∉ behind) :
    (ahead ++ p :: behind).filter (· != p) = ahead ++ behind := by
  have others : ∀ {l : List Port}, p ∉ l → l.filter (· != p) = l := fun absent =>
    List.filter_eq_self.mpr fun q hq => bne_iff_ne.mpr (ne_of_mem_of_not_mem hq absent)
  rw [List.filter_append, List.filter_cons_of_neg (by simp), others before, others after]

theorem releaseGroup_waiting {ahead behind : List Port} (other : (s.group g).lessee ≠ some p)
    (queue : (s.group g).waitQueue = ahead ++ p :: behind) (before : p ∉ ahead) (after : p ∉ behind) :
    releaseGroup p g s =
      answer (s.setGroup g { s.group g with waitQueue := ahead ++ behind }) .ok
        [groupByte g, optionalPort (s.group g).lessee, 0xFF#8] := by
  have left : placeByte { s.group g with waitQueue := ahead ++ behind } p = 0xFF#8 :=
    placeByte_neither other (by simp [before, after])
  rw [releaseGroup, if_neg other, if_pos (by simp [queue])]
  simp only [queue, filter_ne_append_cons before after, leaseData, group_setGroup_self, left]

theorem releaseGroup_neither (other : (s.group g).lessee ≠ some p) (absent : p ∉ (s.group g).waitQueue) :
    releaseGroup p g s = answer s .noLease [groupByte g, optionalPort (s.group g).lessee, 0xFF#8] := by
  rw [releaseGroup, if_neg other, if_neg absent, leaseData, placeByte_neither other absent]

end

/-- Settles O31: past the mode and the group the answer is that of `releaseGroup`, for a waiting port and for a stranger. -/
theorem releaseByOthersLeavesLease : Obligations.ReleaseByOthersLeavesLease := by
  have accepted : Command.release.accepts 1 = true := rfl
  refine ⟨fun p tag group s taken => ⟨fun closed => ?_, fun config starting high => ?_⟩,
    fun p tag g s taken => ⟨fun ahead behind config starting other queue before after => ?_,
      fun config starting other absent => ?_⟩⟩
  · exact takeCommand_mode taken accepted (releaseReply_eq p group) (serving_eq_false closed)
  · exact takeCommand_groupArgument taken accepted (releaseReply_eq p group) (serving_eq_true config starting) high
  · exact takeCommand_group taken accepted (releaseReply_eq p _) (serving_eq_true config starting)
      (releaseGroup_waiting (s := s.endTransaction p) other queue before after)
  · exact takeCommand_group taken accepted (releaseReply_eq p _) (serving_eq_true config starting)
      (releaseGroup_neither (s := s.endTransaction p) other absent)

end Sys2Proof.Proofs
end

section
namespace Sys2Proof.Proofs

open Sys2Proof Sys2Proof.Machine

/-! ## The lease check and BUSY (R57, R58) -/

theorem withLease_other {p : Port} {g : GroupId} {body : State → Reply} {s : State} (other : (s.group g).lessee ≠ some p) :
    withLease p g body s = answer s .noLease [groupByte g, optionalPort (s.group g).lessee] :=
  if_neg other

theorem withLease_lessee {p : Port} {g : GroupId} {body : State → Reply} {s : State} (lease : (s.group g).lessee = some p) :
    withLease p g body s = body s :=
  if_pos lease

section
variable {p : Port} {s : State}

theorem stageEntry_sealed {index : Byte} {words : List Word} {e : Entry} (lease : (s.group e.group).lessee = some p)
    (closed : (s.group e.group).state = .sealed) : stageEntry p index words e s = busyReply e.group s := by
  rw [stageEntry, withLease_lessee lease]
  simp only [closed]

theorem unstageEntry_sealed {index : Byte} {e : Entry} (lease : (s.group e.group).lessee = some p)
    (closed : (s.group e.group).state = .sealed) : unstageEntry p index e s = busyReply e.group s := by
  rw [unstageEntry, withLease_lessee lease]
  simp only [closed]

theorem sealGroup_sealed {g : GroupId} {delay : Byte} {marked : Bool} (lease : (s.group g).lessee = some p)
    (closed : (s.group g).state = .sealed) : sealGroup p g delay marked s = busyReply g s := by
  rw [sealGroup, withLease_lessee lease]
  simp only [closed]

end

/-! ### The arguments of SEAL (R63) -/

theorem groupByte_of_lt {b : Byte} (h : b.toNat < 16) : ∃ g, b = groupByte g :=
  ⟨⟨b.toNat, h⟩, by simp [groupByte]⟩

theorem flagOf_eq_none {b : Byte} (h : 2 ≤ b.toNat) : flagOf b = none := by
  rw [flagOf, if_neg (by rintro rfl; simp at h), if_neg (by rintro rfl; simp at h)]

theorem flagOf_isSome {b : Byte} (h : b.toNat ≤ 1) : ∃ m, flagOf b = some m := by
  have code : b = 0#8 ∨ b = 1#8 := by bv_omega
  rcases code with rfl | rfl
  · exact ⟨false, rfl⟩
  · exact ⟨true, rfl⟩

theorem sealChecked_argument {p : Port} {delay marked : Byte} (g : GroupId) (s : State)
    (h : 16 ≤ delay.toNat ∨ 2 ≤ marked.toNat) : sealChecked p delay marked g s = answer s .argument [] := by
  unfold sealChecked
  split
  · rfl
  · next m flag =>
    rcases h with late | bad
    · exact if_pos late
    · rw [flagOf_eq_none bad] at flag
      cases flag

theorem sealChecked_sealGroup {p : Port} {delay marked : Byte} (g : GroupId) (s : State) (hd : delay.toNat ≤ 15)
    (hm : marked.toNat ≤ 1) : ∃ m, sealChecked p delay marked g s = sealGroup p g delay m s := by
  obtain ⟨m, flag⟩ := flagOf_isSome hm
  exact ⟨m, by simp only [sealChecked, flag, if_neg (not_lt.mpr hd)]⟩

/-! ### The checks in order -/

/-- The checks that STAGE, UNSTAGE and READ_STAGED share: the mode, the entry and the lease (R57), then BUSY where a SEALED
set refuses the command (R58). -/
theorem entryCommand_checked {p : Port} {c : Command} {tag index : Byte} {L : Nat} {modes : Mode → Bool} {refuses : Prop}
    {body : State → Reply} {ofEntry : Entry → State → Reply} {s : State} {i : Instr} (taken : Taken s p)
    (accepted : c.accepts L = true) (reply : body = modeChecked modes (entryChecked index ofEntry))
    (is : exec i s = .next (takeCommand p c tag L body s))
    (noLease : ∀ e (t : State), (t.group e.group).lessee ≠ some p →
      ofEntry e t = answer t .noLease [groupByte e.group, optionalPort (t.group e.group).lessee])
    (busy : refuses → ∀ e (t : State), (t.group e.group).lessee = some p → (t.group e.group).state = .sealed →
      ofEntry e t = busyReply e.group t) :
    (modes s.mode = false → exec i s = .next (answered p tag .mode [] s))
    ∧ (modes s.mode = true → s.entry index = none → exec i s = .next (answered p tag .noEntry [index] s))
    ∧ ∀ e, modes s.mode = true → s.entry index = some e →
      ((s.group e.group).lessee ≠ some p →
        exec i s = .next (answered p tag .noLease [groupByte e.group, optionalPort (s.group e.group).lessee] s))
      ∧ ((s.group e.group).lessee = some p → (s.group e.group).state = .sealed → refuses →
        exec i s = .next
          (answered p tag .busy [groupByte e.group, 0x02#8, optionalPort (s.group e.group).sealer] s)) := by
  rw [is]
  refine ⟨takeCommand_mode taken accepted reply, takeCommand_noEntry taken accepted reply, fun e admits here =>
    ⟨fun other => ?_, fun lease closed refused => ?_⟩⟩
  · exact takeCommand_entry taken accepted reply admits here (noLease e (s.endTransaction p) other)
  · exact takeCommand_entry taken accepted reply admits here (busy refused e (s.endTransaction p) lease closed)

/-- Settles O32: the mode, the arguments, the entry and the lease in the order of R57, then BUSY. -/
theorem writerCommandsCheckedInOrder : Obligations.WriterCommandsCheckedInOrder := by
  intro p tag s i taken
  refine ⟨fun index command => ?_, fun group delay marked command => ?_, fun group command => ?_⟩
  · intro takenIn
    rcases command with rfl | ⟨words, rfl, low, high⟩ | rfl
    · have modes : takenIn = working s.mode := by simp [takenIn, working]
      rw [modes]
      exact entryCommand_checked (index := index) taken (c := .unstage) rfl (unstageReply_eq p index) rfl
        (fun _ _ => withLease_other) fun _ _ _ => unstageEntry_sealed
    · have modes : takenIn = working s.mode := by simp [takenIn, working]
      rw [modes]
      exact entryCommand_checked taken (accepts_stage low high) (stageReply_eq p index words) rfl
        (fun _ _ => withLease_other) fun _ _ _ => stageEntry_sealed
    · have modes : takenIn = serving s.mode := by simp [takenIn, serving, working]
      rw [modes]
      exact entryCommand_checked (index := index) taken (c := .readStaged) rfl (readStagedReply_eq p index) rfl
        (fun _ _ => withLease_other) fun refuses => absurd rfl refuses
  · subst command
    have accepted : Command.seal.accepts 3 = true := rfl
    refine ⟨fun running fault => ?_, fun admits bad => ?_, fun g number admits hd hm => ?_⟩
    · exact takeCommand_mode taken accepted (sealReply_eq p group delay marked) (working_eq_false running fault)
    · by_cases high : 16 ≤ group.toNat
      · exact takeCommand_groupArgument taken accepted (sealReply_eq p group delay marked) (working_eq_true admits) high
      · obtain ⟨g, rfl⟩ := groupByte_of_lt (not_le.mp high)
        exact takeCommand_group taken accepted (sealReply_eq p _ delay marked) (working_eq_true admits)
          (sealChecked_argument g _ (bad.resolve_left high))
    · subst number
      obtain ⟨m, seals⟩ := sealChecked_sealGroup (p := p) g (s.endTransaction p) hd hm
      have answers : ∀ {status data},
          sealGroup p g delay m (s.endTransaction p) = answer (s.endTransaction p) status data →
          exec (.seal p tag (groupByte g) delay marked) s = .next (answered p tag status data s) := fun h =>
        takeCommand_group taken accepted (sealReply_eq p _ delay marked) (working_eq_true admits) (seals.trans h)
      exact ⟨fun other => answers (withLease_other (s := s.endTransaction p) other),
        fun lease closed => answers (sealGroup_sealed (s := s.endTransaction p) lease closed)⟩
  · subst command
    have accepted : Command.unseal.accepts 1 = true := rfl
    refine ⟨fun running fault => ?_, fun admits high => ?_, fun g number admits other => ?_⟩
    · exact takeCommand_mode taken accepted (unsealReply_eq p group) (working_eq_false running fault)
    · exact takeCommand_groupArgument taken accepted (unsealReply_eq p group) (working_eq_true admits) high
    · subst number
      exact takeCommand_group taken accepted (unsealReply_eq p _) (working_eq_true admits)
        (withLease_other (s := s.endTransaction p) other)

end Sys2Proof.Proofs
end

section
namespace Sys2Proof.Proofs

open Sys2Proof Sys2Proof.Machine

/-! ## UNSTAGE (R21, R61) -/

/-! ### Staged values removed (R21) -/

/-- Removing staged values changes the table and nothing else. -/
theorem unstageAll_eq (s : State) (indices : List Byte) :
    unstageAll s indices = { s with entries := (unstageAll s indices).entries } := by
  induction indices generalizing s with
  | nil => rfl
  | cons i rest ih => exact ih (s.setEntry i (clearStaged (s.entry i)))

theorem unstageAll_endTransaction (s : State) (p : Port) (indices : List Byte) :
    unstageAll (s.endTransaction p) indices = (unstageAll s indices).endTransaction p := by
  induction indices generalizing s with
  | nil => rfl
  | cons i rest ih => exact ih (s.setEntry i (clearStaged (s.entry i)))

/-- The entries listed lose their staged values, a second time to no effect, and the others stay (R21). -/
theorem entry_unstageAll (indices : List Byte) (s : State) (j : Byte) :
    (unstageAll s indices).entry j = if j ∈ indices then clearStaged (s.entry j) else s.entry j := by
  induction indices generalizing s with
  | nil => simp [unstageAll]
  | cons i rest ih =>
    have step : (unstageAll s (i :: rest)).entry j = _ := ih (s.setEntry i (clearStaged (s.entry i)))
    rw [step, entry_setEntry]
    by_cases same : i = j
    · subst same
      simp
    · simp [same, Ne.symm same]

/-! ### UNSTAGE by the group state (R61) -/

/-- The state that an accepted UNSTAGE in STAGING leaves (R61). -/
def unstagedState (index : Byte) (e : Entry) (s : State) : State :=
  (unstageAll s (unstageIndices index e)).modifyGroup e.group showProgress

theorem unstagedState_eq (index : Byte) (e : Entry) (s : State) :
    unstagedState index e s =
      { s.setGroup e.group { s.group e.group with patience := 0#8 } with entries := (unstagedState index e s).entries } := by
  conv_lhs => rw [unstagedState, unstageAll_eq]
  rfl

theorem unstagedState_endTransaction (index : Byte) (e : Entry) (s : State) (p : Port) :
    unstagedState index e (s.endTransaction p) = (unstagedState index e s).endTransaction p := by
  rw [unstagedState, unstageAll_endTransaction]
  rfl

theorem soundEntry_of_fanSound {s : State} {e : Entry} (sound : ∀ f, e = .fan f → FanSound s f) :
    soundEntry s (some e) = true := by
  cases e with
  | value v => rfl
  | fan f => exact (soundEntry_fan s f).mpr (sound f rfl)

section
variable {p : Port} {index : Byte} {e : Entry} {s : State}

theorem unstageEntry_idle (lease : (s.group e.group).lessee = some p) (idle : (s.group e.group).state = .idle) :
    unstageEntry p index e s =
      answer (s.modifyGroup e.group showProgress) .ok
        (index :: 0#8 :: countBytes (stagedCount s e.group)) := by
  rw [unstageEntry, withLease_lessee lease]
  simp only [idle]
  rfl

theorem unstageEntry_staging (lease : (s.group e.group).lessee = some p) (staging : (s.group e.group).state = .staging)
    (sound : soundEntry s (some e) = true) :
    unstageEntry p index e s =
      answer (unstagedState index e s) .ok
        (unstageData index ((unstageIndices index e).any (holdsStaged s)) e.group (unstagedState index e s)) := by
  rw [unstageEntry, withLease_lessee lease]
  simp only [staging, sound, if_true]
  rfl

end

/-- Settles O35: past the checks of R57 the answer is that of `unstageEntry`, by the group state. -/
theorem unstageRemovesStagedValues : Obligations.UnstageRemovesStagedValues := by
  intro p tag index e s taken admits here lease removes cleared
  have answers : ∀ {t status data}, unstageEntry p index e (s.endTransaction p) = answer (t.endTransaction p) status data →
      exec (.unstage p tag index) s = .next (answered p tag status data t) :=
    takeCommand_entry (c := .unstage) taken rfl (unstageReply_eq p index) (working_eq_true admits) here
  refine ⟨fun closed => ?_, fun idle => ?_, fun staging sound => ?_⟩
  · exact answers (unstageEntry_sealed (s := s.endTransaction p) lease closed)
  · exact answers (unstageEntry_idle (s := s.endTransaction p) lease idle)
  · have indices : removes = unstageIndices index e := by cases e <;> rfl
    have unstaged := unstageEntry_staging (s := s.endTransaction p) (index := index) lease staging
      (soundEntry_of_fanSound sound)
    rw [unstagedState_endTransaction] at unstaged
    rw [indices]
    refine ⟨_, answers unstaged, ?_, fun j => ?_⟩
    · conv_lhs => rw [unstagedState_eq]
      rfl
    · refine (entry_unstageAll (unstageIndices index e) s j).trans ?_
      match s.entry j with
      | none | some (.fan _) => exact ite_self _
      | some (.value v) => rfl

end Sys2Proof.Proofs
end

section
namespace Sys2Proof.Proofs

open Sys2Proof Sys2Proof.Machine

/-! ## READ_STAGED (R62, R182) -/

/-- The words that READ_STAGED shows of a VALUE entry, with their flag, as bytes (R182). -/
def shownBytes (v : ValueEntry) : List Byte := wordsBytes (shownWords v).1 ++ [flagByte (shownWords v).2]

section
variable {p : Port} {index : Byte} {s : State}

theorem readStagedEntry_value {v : ValueEntry} (lease : (s.group v.group).lessee = some p) :
    readStagedEntry p index (.value v) s = answer s .ok (countByte v.width :: shownBytes v) :=
  withLease_lessee lease

theorem readStagedEntry_fan {f : FanEntry} {targets : List (Byte × ValueEntry)}
    (lease : (s.group f.group).lessee = some p) (sound : fanTargets s f = some targets) :
    readStagedEntry p index (.fan f) s =
      answer s .ok (countByte targets.length :: targets.flatMap fun x => x.1 :: shownBytes x.2) := by
  rw [readStagedEntry, withLease_lessee (g := (Entry.fan f).group) lease]
  simp only [sound]
  rfl

end

/-- Settles O37: past the checks of R57 the answer is that of `readStagedEntry`, by the kind of the entry. -/
theorem readStagedShowsLesseeTheSet : Obligations.ReadStagedShowsLesseeTheSet := by
  intro p tag index s taken modes shown
  have admits : serving s.mode = true := by
    rcases modes with mode | mode | mode <;> rw [mode] <;> rfl
  have bytes : shown = shownBytes := funext fun v => by
    simp only [shown, shownBytes, shownWords]
    cases v.staged <;> rfl
  have answers : ∀ {e data}, s.entry index = some e →
      readStagedEntry p index e (s.endTransaction p) = answer (s.endTransaction p) .ok data →
      exec (.readStaged p tag index) s = .next (answered p tag .ok data s) := fun here =>
    takeCommand_entry (c := .readStaged) taken rfl (readStagedReply_eq p index) admits here
  rw [bytes]
  refine ⟨fun v here lease => ?_, fun f targets here lease list each => ?_⟩
  · exact answers here (readStagedEntry_value (s := s.endTransaction p) lease)
  · have sound : fanTargets (s.endTransaction p) f = some targets := by
      rw [fanTargets, list]
      exact collectTargets_of each
    exact answers here (readStagedEntry_fan (s := s.endTransaction p) lease sound)

end Sys2Proof.Proofs
end

section
namespace Sys2Proof.Proofs

open Sys2Proof Sys2Proof.Machine

/-! ## SEAL and UNSEAL (R24, R63, R68, R69) -/

@[simp] theorem flagOf_flagByte (b : Bool) : flagOf (flagByte b) = some b := by
  cases b <;> rfl

section
variable {p : Port} {g : GroupId} {s : State}

/-- SEAL with a flag written as a byte and a delay within its bound passes the checks of its arguments (R63). -/
theorem sealChecked_flagByte {delay : Byte} (marked : Bool) (bound : delay.toNat ≤ 15) :
    sealChecked p delay (flagByte marked) g s = sealGroup p g delay marked s := by
  simp only [sealChecked, flagOf_flagByte, if_neg (not_lt.mpr bound)]

theorem sealGroup_open {delay : Byte} {marked : Bool} (lease : (s.group g).lessee = some p)
    (unsealed : (s.group g).state ≠ .sealed) :
    sealGroup p g delay marked s =
      answer (s.setGroup g (sealedRecord p delay marked (s.group g))) .ok
        ([groupByte g] ++ halfBytes (s.group g).epoch ++ [delay + 1#8] ++ countBytes (stagedCount s g)) := by
  rw [sealGroup, withLease_lessee lease]
  cases state : (s.group g).state with
  | sealed => exact absurd state unsealed
  | idle | staging => simp only [group_modifyGroup_self]; rfl

theorem unsealGroup_sealed (lease : (s.group g).lessee = some p) (closed : (s.group g).state = .sealed) :
    unsealGroup p g s =
      answer (s.setGroup g { clearSealed (showProgress (s.group g)) with state := .staging }) .ok
        ([groupByte g] ++ countBytes (stagedCount s g) ++ [optionalPort (s.group g).sealer]) := by
  rw [unsealGroup, withLease_lessee lease]
  simp only [closed]
  rfl

theorem unsealGroup_late (lease : (s.group g).lessee = some p) (unsealed : (s.group g).state ≠ .sealed) :
    unsealGroup p g s =
      answer s .late ([groupByte g, groupStateCode (s.group g).state] ++ halfBytes (s.group g).epoch) := by
  rw [unsealGroup, withLease_lessee lease]
  cases state : (s.group g).state with
  | sealed => exact absurd state unsealed
  | idle | staging => simp only [state]; rfl

end

/-- Settles O36: past the checks of R57 the answers are those of `sealGroup` and `unsealGroup`, by the group state. -/
theorem sealClosesAndUnsealReopens : Obligations.SealClosesAndUnsealReopens := by
  refine ⟨fun p tag g delay marked s taken admits bound lease unsealed => ?_, fun p tag g s taken admits lease => ?_⟩
  · refine takeCommand_group (c := .seal) taken rfl (sealReply_eq p _ delay (flagByte marked)) (working_eq_true admits) ?_
    rw [sealChecked_flagByte marked bound]
    exact sealGroup_open (s := s.endTransaction p) lease unsealed
  · have answers : ∀ {t status data}, unsealGroup p g (s.endTransaction p) = answer (t.endTransaction p) status data →
        exec (.unseal p tag (groupByte g)) s = .next (answered p tag status data t) :=
      takeCommand_group (c := .unseal) taken rfl (unsealReply_eq p _) (working_eq_true admits)
    exact ⟨fun closed => answers (unsealGroup_sealed (s := s.endTransaction p) lease closed),
      fun unsealed => answers (unsealGroup_late (s := s.endTransaction p) lease unsealed)⟩

end Sys2Proof.Proofs
end

section
namespace Sys2Proof.Proofs

open Sys2Proof Sys2Proof.Machine

/-! ## The boundary at work (R79) -/

theorem currentWork_eq_some {s : State} {w : BoundaryWork} : s.currentWork = some w ↔ AtWork s w := by
  unfold State.currentWork AtWork
  rw [List.find?_eq_some_iff_append]
  constructor
  · rintro ⟨unclosed, before, after, split, closed⟩
    exact ⟨before, after, split, fun x hx => by simpa [BoundaryWork.unclosed] using closed x hx,
      by simpa [BoundaryWork.unclosed] using unclosed⟩
  · rintro ⟨before, after, split, closed, open_⟩
    exact ⟨by simp [BoundaryWork.unclosed, open_], before, after, split,
      fun x hx => by simp [BoundaryWork.unclosed, closed x hx]⟩

theorem not_atWork_of_all_closed {s : State} (h : ∀ x ∈ s.boundaries, x.closed = true) (w : BoundaryWork) : ¬ AtWork s w := by
  rintro ⟨before, after, split, -, open_⟩
  simp [h w (by simp [split])] at open_

/-- One boundary at most is at work. -/
theorem atWork_unique {s : State} {v w : BoundaryWork} (hv : AtWork s v) (hw : AtWork s w) : v = w :=
  Option.some.inj ((currentWork_eq_some.mpr hv).symm.trans (currentWork_eq_some.mpr hw))

theorem modifyFirst_append {α : Type} (test : α → Bool) (f : α → α) (before after : List α) (x : α)
    (fails : ∀ y ∈ before, test y = false) (meets : test x = true) :
    modifyFirst test f (before ++ x :: after) = before ++ f x :: after := by
  induction before with
  | nil => simp [modifyFirst, meets]
  | cons y rest ih =>
    obtain ⟨first, others⟩ := List.forall_mem_cons.mp fails
    simp [modifyFirst, first, ih others]

theorem modifyCurrentWork_eq {s : State} {before after : List BoundaryWork} {w : BoundaryWork}
    (split : s.boundaries = before ++ w :: after) (closed : ∀ x ∈ before, x.closed = true) (open_ : w.closed = false)
    (f : BoundaryWork → BoundaryWork) :
    s.modifyCurrentWork f = { s with boundaries := before ++ f w :: after } := by
  rw [State.modifyCurrentWork, split, modifyFirst_append]
  · exact fun x hx => by simp [BoundaryWork.unclosed, closed x hx]
  · simp [BoundaryWork.unclosed, open_]

/-- The shape that the opening, the evaluations and the closing share: an act on the boundary at work, if it is due there. -/
def takeWork (due : BoundaryWork → Bool) (act : BoundaryWork → State → State) (s : State) : State :=
  match s.currentWork with
  | none => s
  | some w => if due w then act w s else s

theorem takeWork_due {due : BoundaryWork → Bool} {act : BoundaryWork → State → State} {s : State} {w : BoundaryWork}
    (at_ : AtWork s w) (h : due w = true) : takeWork due act s = act w s := by
  simp [takeWork, currentWork_eq_some.mpr at_, h]

theorem takeWork_notDue {due : BoundaryWork → Bool} {act : BoundaryWork → State → State} {s : State}
    (h : ∀ w, AtWork s w → due w = false) : takeWork due act s = s := by
  unfold takeWork
  split
  · rfl
  · next w at_ => simp [h w (currentWork_eq_some.mp at_)]

/-- The opening of a boundary: the evaluations it owes (R79). -/
def openWork (s : State) (w : BoundaryWork) : BoundaryWork :=
  { w with
    opened := true
    groupEvals := if w.kind.inRunning then looseGroups s else 0#16
    bundleEvals := if w.kind.inRunning then liveBundles s else 0#4 }

theorem exec_opening (s : State) :
    exec .opening s = .next (takeWork (fun w => !w.opened)
      (fun _ s => { s.modifyCurrentWork (openWork s) with committedLast := 0#16 }) s) := by
  refine congrArg Host.Outcome.next ?_
  unfold takeWork
  cases s.currentWork with
  | none => rfl
  | some w =>
    cases opened : w.opened with
    | true => simp only [opened]; rfl
    | false => simp only [opened]; rfl

theorem exec_groupEvaluation (g : GroupId) (s : State) :
    exec (.groupEvaluation g) s = .next (takeWork (fun w => w.opened && inSet w.groupEvals g)
      (fun w s =>
        let u := s.modifyCurrentWork fun w => { w with groupEvals := dropFrom w.groupEvals g }
        if u.actsAt w then evaluateGroup w.frame g u else u) s) := rfl

theorem exec_bundleEvaluation (b : BundleId) (s : State) :
    exec (.bundleEvaluation b) s = .next (takeWork (fun w => w.opened && inSet w.bundleEvals b)
      (fun w s =>
        let u := s.modifyCurrentWork fun w => { w with bundleEvals := dropFrom w.bundleEvals b }
        if u.actsAt w then evaluateBundle w.frame b u else u) s) := rfl

theorem exec_closing (s : State) :
    exec .closing s = .next (takeWork (fun w => w.opened && w.groupEvals == 0#16 && w.bundleEvals == 0#4)
      (fun _ s => State.dropFinished
        { s.modifyCurrentWork (fun w => { w with closed := true }) with
          commitPulse := if s.committedLast ≠ 0#16 then some (s.now + Config.commitPulsePeriods) else s.commitPulse }) s) :=
  rfl

/-! ## The opening and the closing of a boundary (R79, R96, R97) -/

theorem set_ext {n : Nat} {a b : BitVec n} (h : ∀ i, inSet a i = true ↔ inSet b i = true) : a = b :=
  BitVec.eq_of_getLsbD_eq fun i hi => Bool.eq_iff_iff.mpr (h ⟨i, hi⟩)

theorem inRunning_iff (k : BoundaryKind) : k.inRunning = true ↔ k = .run ∨ k = .resume := by
  cases k <;> simp [BoundaryKind.inRunning]

theorem inSet_foldl_addTo {n : Nat} (l : List (Fin n)) (set : BitVec n) (i : Fin n) :
    inSet (l.foldl addTo set) i = true ↔ inSet set i = true ∨ i ∈ l := by
  induction l generalizing set with
  | nil => simp
  | cons k rest ih =>
    rw [List.foldl_cons, ih, inSet_addTo, Bool.or_eq_true, decide_eq_true_eq, or_assoc, List.mem_cons, eq_comm (a := k)]

theorem inSet_zero {n : Nat} (i : Fin n) : inSet (0#n) i = false := by simp [inSet]

theorem inSet_looseGroups (s : State) (g : GroupId) :
    inSet (looseGroups s) g = true ↔ ∀ b, inSet (s.bundle b) g = false := by
  rw [looseGroups, inSet_groupSetOf]
  simp [mem_allGroups, bundleHolding, mem_allBundles]

theorem inSet_liveBundles (s : State) (b : BundleId) : inSet (liveBundles s) b = true ↔ s.bundle b ≠ 0#16 := by
  rw [liveBundles, inSet_foldl_addTo]
  simp [mem_allBundles, inSet_zero]

theorem openWork_eq {s : State} {w : BoundaryWork} {groupEvals : GroupSet} {bundleEvals : BundleSet}
    (groups : ∀ g, inSet groupEvals g = true ↔ ((w.kind = .run ∨ w.kind = .resume) ∧ ∀ b, inSet (s.bundle b) g = false))
    (bundles : ∀ b, inSet bundleEvals b = true ↔ ((w.kind = .run ∨ w.kind = .resume) ∧ s.bundle b ≠ 0#16)) :
    openWork s w = { w with opened := true, groupEvals := groupEvals, bundleEvals := bundleEvals } := by
  have sameGroups : (if w.kind.inRunning then looseGroups s else 0#16) = groupEvals := set_ext fun g => by
    rw [groups, ← inRunning_iff, ← inSet_looseGroups]
    split <;> simp [*, inSet_zero]
  have sameBundles : (if w.kind.inRunning then liveBundles s else 0#4) = bundleEvals := set_ext fun b => by
    rw [bundles, ← inRunning_iff, ← inSet_liveBundles]
    split <;> simp [*, inSet_zero]
  rw [openWork, sameGroups, sameBundles]

theorem finished_iff (w : BoundaryWork) :
    w.finished = true ↔ w.closed = true ∧ w.patienceSteps = 0#16 ∧ w.ackSteps = 0#16 := by
  simp [BoundaryWork.finished, and_assoc]

/-- Settles O39: the opening and the closing act on the boundary at work (`takeWork`), once each. -/
theorem boundaryWorkOpensAndCloses : Obligations.BoundaryWorkOpensAndCloses := by
  refine ⟨fun s => ⟨?_, ?_, ?_⟩, fun s => ⟨?_, ?_, ?_, ?_, ?_, ?_⟩, finished_iff⟩
  · intro before w after groupEvals bundleEvals split closed open_ unopened groups bundles
    rw [exec_opening, takeWork_due ⟨before, after, split, closed, open_⟩ (by simp [unopened]),
      modifyCurrentWork_eq split closed open_, openWork_eq groups bundles]
  · intro before w after split closed open_ opened
    rw [exec_opening, takeWork_notDue fun v at_ => ?_]
    simp [atWork_unique at_ ⟨before, after, split, closed, open_⟩, opened]
  · intro allClosed
    rw [exec_opening, takeWork_notDue fun v at_ => absurd at_ (not_atWork_of_all_closed allClosed v)]
  · intro before w after split closed open_ opened
    have at_ : AtWork s w := ⟨before, after, split, closed, open_⟩
    refine ⟨fun noGroup noBundle => ?_, fun owed => ?_⟩
    · rw [exec_closing, takeWork_due at_ (by simp [opened, noGroup, noBundle]),
        modifyCurrentWork_eq split closed open_, ite_not]
      rfl
    · rw [exec_closing, takeWork_notDue fun v hv => ?_]
      rw [atWork_unique hv at_]
      rcases owed with group | bundle
      · simp [group]
      · simp [bundle]
  · intro before w after split closed open_ unopened
    rw [exec_closing, takeWork_notDue fun v at_ => ?_]
    simp [atWork_unique at_ ⟨before, after, split, closed, open_⟩, unopened]
  · intro allClosed
    rw [exec_closing, takeWork_notDue fun v at_ => absurd at_ (not_atWork_of_all_closed allClosed v)]
  · intro time pulse
    change execCommitPulseEnd s = _
    simp only [execCommitPulseEnd, pulse]
  · intro low
    change execCommitPulseEnd s = _
    simp only [execCommitPulseEnd, low]
  · exact Option.isSome_iff_exists

end Sys2Proof.Proofs
end

section
namespace Sys2Proof.Proofs

open Sys2Proof Sys2Proof.Machine

/-! ## DEFINE_BUNDLE (R87) -/

theorem accepts_defineBundle {n : Nat} (high : n ≤ 16) : Command.defineBundle.accepts (1 + n) = true := by
  simp [Command.accepts]
  omega

theorem bundleOf_eq_none {b : Byte} : bundleOf b = none ↔ 4 ≤ b.toNat := by
  simp [bundleOf]

@[simp] theorem bundleOf_ofNat (b : BundleId) : bundleOf (BitVec.ofNat 8 b.val) = some b := by
  revert b
  decide

theorem groupByte_injective : Function.Injective groupByte := fun g h same => by
  simpa using congrArg groupOf same

theorem groupByte_of_groupOf {b : Byte} {g : GroupId} (h : groupOf b = some g) : b = groupByte g := by
  unfold groupOf at h
  split at h
  · cases h
    simp [groupByte]
  · cases h

theorem groupsOf_cons_groupByte (g : GroupId) (rest : List Byte) :
    groupsOf (groupByte g :: rest) = (groupsOf rest).map (g :: ·) := by
  rw [groupsOf, groupOf_groupByte]
  cases groupsOf rest <;> rfl

/-- A member list is read just where it is the list of some groups' numbers. -/
theorem groupsOf_eq_some {list : List Byte} {gs : List GroupId} : groupsOf list = some gs ↔ list = gs.map groupByte := by
  constructor
  · intro h
    induction list generalizing gs with
    | nil => cases h; rfl
    | cons b rest ih =>
      rw [groupsOf] at h
      split at h
      · next g gs' hg hrest =>
        cases h
        rw [List.map_cons, ← ih hrest, groupByte_of_groupOf hg]
      · cases h
  · rintro rfl
    induction gs with
    | nil => rfl
    | cons g rest ih => rw [List.map_cons, groupsOf_cons_groupByte, ih]; rfl

theorem toNat_groupByte_lt (g : GroupId) : (groupByte g).toNat < 16 := by
  simp [groupByte]
  omega

/-! ### Groups of another bundle -/

theorem heldElsewhere_cons_of_free {s : State} {b : BundleId} {g : GroupId}
    (free : ∀ d, d ≠ b → inSet (s.bundle d) g = false) (rest : List GroupId) :
    heldElsewhere s b (g :: rest) = heldElsewhere s b rest := by
  have absent : allBundles.find? (fun c => c != b && inSet (s.bundle c) g) = none :=
    List.find?_eq_none.mpr fun d _ => by
      by_cases own : d = b
      · simp [own]
      · simp [free d own]
  rw [heldElsewhere, absent]

/-- Groups that no other bundle has do not decide (R87). -/
theorem heldElsewhere_append_of_free {s : State} {b : BundleId} {before : List GroupId}
    (free : ∀ g ∈ before, ∀ d, d ≠ b → inSet (s.bundle d) g = false) (rest : List GroupId) :
    heldElsewhere s b (before ++ rest) = heldElsewhere s b rest := by
  induction before with
  | nil => rfl
  | cons g before ih =>
    obtain ⟨first, others⟩ := List.forall_mem_cons.mp free
    rw [List.cons_append, heldElsewhere_cons_of_free first, ih others]

theorem heldElsewhere_of_free {s : State} {b : BundleId} {gs : List GroupId}
    (free : ∀ g ∈ gs, ∀ d, d ≠ b → inSet (s.bundle d) g = false) : heldElsewhere s b gs = none := by
  rw [← List.append_nil gs, heldElsewhere_append_of_free free]
  rfl

theorem heldElsewhere_cons_of_held {s : State} {b c : BundleId} {g : GroupId} {rest : List GroupId} (other : c ≠ b)
    (held : inSet (s.bundle c) g = true) (only : ∀ d, d ≠ b → inSet (s.bundle d) g = true → d = c) :
    heldElsewhere s b (g :: rest) = some (g, c) := by
  have found : (allBundles.find? fun d => d != b && inSet (s.bundle d) g) = some c := by
    cases look : allBundles.find? fun d => d != b && inSet (s.bundle d) g with
    | none => simpa [other, held] using List.find?_eq_none.mp look c (mem_allBundles c)
    | some d =>
      have meets := List.find?_some look
      simp only [Bool.and_eq_true, bne_iff_ne] at meets
      rw [only d meets.1 meets.2]
  rw [heldElsewhere, found]

/-! ### The checks in order -/

section
variable {bundle : Byte} {list : List Byte} {s : State}

theorem defineBundleBody_argument
    (bad : 4 ≤ bundle.toNat ∨ list.length = 1 ∨ (∃ n ∈ list, 16 ≤ n.toNat) ∨ ¬ list.Nodup) :
    defineBundleBody bundle list s = answer s .argument [] := by
  unfold defineBundleBody
  split
  · rfl
  split
  · rfl
  split
  · rfl
  · rename_i _ hb many _ gs hgs
    have members := groupsOf_eq_some.mp hgs
    have dup : ¬ gs.Nodup := by
      rcases bad with range | single | ⟨n, hn, big⟩ | dup
      · rw [bundleOf_eq_none.mpr range] at hb
        cases hb
      · exact absurd single many
      · rw [members] at hn
        obtain ⟨g, -, rfl⟩ := List.mem_map.mp hn
        exact absurd big (not_le.mpr (toNat_groupByte_lt g))
      · rwa [members, List.nodup_map_iff groupByte_injective] at dup
    rw [if_pos dup]

variable {b : BundleId} {gs : List GroupId}

theorem defineBundleBody_elsewhere {g : GroupId} {c : BundleId} (many : (gs.map groupByte).length ≠ 1) (nodup : gs.Nodup)
    (held : heldElsewhere s b gs = some (g, c)) :
    defineBundleBody (BitVec.ofNat 8 b.val) (gs.map groupByte) s =
      answer s .argument [groupByte g, optionalBundle (some c)] := by
  simp only [defineBundleBody, bundleOf_ofNat, if_neg many, groupsOf_eq_some.mpr rfl, if_neg (not_not.mpr nodup), held]

theorem defineBundleBody_free (many : (gs.map groupByte).length ≠ 1) (nodup : gs.Nodup)
    (free : heldElsewhere s b gs = none) :
    defineBundleBody (BitVec.ofNat 8 b.val) (gs.map groupByte) s =
      answer (s.setBundle b (groupSetOf gs)) .ok (optionalBundle (some b) :: halfBytes (groupSetOf gs)) := by
  simp only [defineBundleBody, bundleOf_ofNat, if_neg many, groupsOf_eq_some.mpr rfl, if_neg (not_not.mpr nodup), free]

end

/-- Settles O38: the checks of `defineBundleBody` in their order, and the set of a list by its members. -/
theorem defineBundleReplacesMembers : Obligations.DefineBundleReplacesMembers := by
  intro p tag bundle list s taken config claim high
  have answers : ∀ {t status data},
      defineBundleBody bundle list (s.endTransaction p) = answer (t.endTransaction p) status data →
      exec (.defineBundle p tag bundle list) s = .next (answered p tag status data t) := fun h =>
    takeCommand_claimed_answered (refusal := fun _ => []) taken (accepts_defineBundle high) config claim h
  refine ⟨fun bad => answers (defineBundleBody_argument bad), fun b gs hb hgs many nodup => ?_⟩
  subst hb hgs
  refine ⟨fun before g after c split free other held only => answers ?_, fun set members free => answers ?_⟩
  · have first : heldElsewhere (s.endTransaction p) b gs = some (g, c) := by
      rw [split, heldElsewhere_append_of_free (s := s.endTransaction p) free]
      exact heldElsewhere_cons_of_held other held only
    exact defineBundleBody_elsewhere many nodup first
  · have same : groupSetOf gs = set := set_ext fun g => (inSet_groupSetOf gs g).trans (members g).symm
    rw [defineBundleBody_free (s := s.endTransaction p) many nodup (heldElsewhere_of_free free), same]
    rfl

end Sys2Proof.Proofs
end

section
namespace Sys2Proof.Proofs

open Sys2Proof Sys2Proof.Machine

/-! ## The evaluation of a group (R80 to R85) -/

/-! ### Evaluations owed -/

section
variable {s : State} {before after : List BoundaryWork} {w : BoundaryWork}

theorem groupEvaluation_owed {g : GroupId} (split : s.boundaries = before ++ w :: after)
    (closed : ∀ x ∈ before, x.closed = true) (open_ : w.closed = false) (opened : w.opened = true)
    (owed : inSet w.groupEvals g = true) :
    exec (.groupEvaluation g) s = .next
      (if s.actsAt w then
        evaluateGroup w.frame g
          { s with boundaries := before ++ { w with groupEvals := dropFrom w.groupEvals g } :: after }
      else { s with boundaries := before ++ { w with groupEvals := dropFrom w.groupEvals g } :: after }) := by
  rw [exec_groupEvaluation, takeWork_due ⟨before, after, split, closed, open_⟩ (by simp [opened, owed]),
    modifyCurrentWork_eq split closed open_]
  rfl

theorem bundleEvaluation_owed {b : BundleId} (split : s.boundaries = before ++ w :: after)
    (closed : ∀ x ∈ before, x.closed = true) (open_ : w.closed = false) (opened : w.opened = true)
    (owed : inSet w.bundleEvals b = true) :
    exec (.bundleEvaluation b) s = .next
      (if s.actsAt w then
        evaluateBundle w.frame b
          { s with boundaries := before ++ { w with bundleEvals := dropFrom w.bundleEvals b } :: after }
      else { s with boundaries := before ++ { w with bundleEvals := dropFrom w.bundleEvals b } :: after }) := by
  rw [exec_bundleEvaluation, takeWork_due ⟨before, after, split, closed, open_⟩ (by simp [opened, owed]),
    modifyCurrentWork_eq split closed open_]
  rfl

theorem groupEvaluation_notOwed {g : GroupId} (h : ∀ w, AtWork s w → w.opened = false ∨ inSet w.groupEvals g = false) :
    exec (.groupEvaluation g) s = .next s := by
  rw [exec_groupEvaluation, takeWork_notDue fun w at_ => ?_]
  rcases h w at_ with unopened | notOwed
  · simp [unopened]
  · simp [notOwed]

theorem bundleEvaluation_notOwed {b : BundleId} (h : ∀ w, AtWork s w → w.opened = false ∨ inSet w.bundleEvals b = false) :
    exec (.bundleEvaluation b) s = .next s := by
  rw [exec_bundleEvaluation, takeWork_notDue fun w at_ => ?_]
  rcases h w at_ with unopened | notOwed
  · simp [unopened]
  · simp [notOwed]

end

theorem actsAt_eq_false {s : State} {w : BoundaryWork} (h : s.mode ≠ .running ∨ w.void = true) : s.actsAt w = false := by
  rw [← Bool.not_eq_true, actsAt_eq_true]
  rintro ⟨running, valid⟩
  rcases h with other | void
  · exact other running
  · rw [valid] at void
    cases void

/-! ### Countdowns and counts (R81, R84) -/

theorem lowerByte_eq_zero {c : Byte} : lowerByte c = 0#8 ↔ c.toNat ≤ 1 := by
  unfold lowerByte
  split
  · next zero => simp [zero]
  · next positive =>
    have : c.toNat ≠ 0 := fun zero => positive (BitVec.eq_of_toNat_eq zero)
    rw [← BitVec.toNat_inj, BitVec.toNat_sub]
    simp
    omega

theorem lowerByte_of_le {c : Byte} (h : c.toNat ≤ 1) : lowerByte c = 0#8 := lowerByte_eq_zero.mpr h

theorem lowerByte_of_lt {c : Byte} (h : 1 < c.toNat) : lowerByte c = c - 1#8 :=
  if_neg fun zero => by simp [zero] at h

theorem raiseByte_eq (c : Byte) : raiseByte c = if c = 255#8 then 255#8 else c + 1#8 := by
  unfold raiseByte
  split
  · next full => exact full
  · rfl

theorem lowerCountdown_of_sealed {g : GroupId} {s : State} (h : (s.group g).state = .sealed) :
    lowerCountdown g s = s.setGroup g { s.group g with countdown := lowerByte (s.group g).countdown } := by
  rw [lowerCountdown, State.modifyGroup, if_pos h]

theorem lowerCountdown_of_unsealed {g : GroupId} {s : State} (h : (s.group g).state ≠ .sealed) :
    lowerCountdown g s = s := by
  rw [lowerCountdown, State.modifyGroup, if_neg h, setGroup_group]

/-! ### A commit looks at no countdown (R92) -/

/-- Two states that differ in group records only, and in that of one group by its countdown only, commit it alike. -/
theorem commitGroup_congr (frame : Half) {g : GroupId} {s t : State} {c : Byte} (same : t = { s with groups := t.groups })
    (record : t.group g = { s.group g with countdown := c }) :
    commitGroup frame g t = { commitGroup frame g s with groups := (commitGroup frame g t).groups } := by
  have entries : (commitGroup frame g t).entries = (commitGroup frame g s).entries := entries_ext fun i => by
    rw [entry_commitGroup, entry_commitGroup, record, same]
    rfl
  have ports : (commitGroup frame g t).ports = (commitGroup frame g s).ports := ports_ext fun q => by
    rw [portUnit_commitGroup, portUnit_commitGroup, record, same]
    rfl
  rw [commitGroup_eq frame g t, commitGroup_eq frame g s, entries, ports]
  dsimp only
  rw [same]

/-- The countdowns of groups that all commit do not matter. -/
theorem foldl_commitGroup_congr (frame : Half) {gs : List GroupId} (nodup : gs.Nodup) {s t : State}
    (same : t = { s with groups := t.groups })
    (records : ∀ g, t.group g = if g ∈ gs then { s.group g with countdown := (t.group g).countdown } else s.group g) :
    gs.foldl (fun u g => commitGroup frame g u) t = gs.foldl (fun u g => commitGroup frame g u) s := by
  induction gs generalizing s t with
  | nil =>
    have groups : t.groups = s.groups := groups_ext fun g => by simpa using records g
    rw [same, groups]
  | cons g rest ih =>
    obtain ⟨apart, nodup⟩ := List.nodup_cons.mp nodup
    have first := records g
    rw [if_pos List.mem_cons_self] at first
    refine ih nodup (commitGroup_congr frame same first) fun h => ?_
    dsimp only
    rw [group_commitGroup, group_commitGroup]
    by_cases here : g = h
    · subst here
      rw [if_pos rfl, if_pos rfl, if_neg apart, first]
      rfl
    · have other := records h
      simp only [List.mem_cons, Ne.symm here, false_or] at other
      rw [if_neg here, if_neg here]
      exact other

theorem commitGroup_countdown (frame : Half) (g : GroupId) (s : State) (c : Byte) :
    commitGroup frame g (s.setGroup g { s.group g with countdown := c }) = commitGroup frame g s := by
  refine foldl_commitGroup_congr frame (List.nodup_singleton g) rfl fun h => ?_
  rw [group_setGroup]
  by_cases here : g = h
  · subst here
    simp
  · rw [if_neg here, if_neg (by simpa using Ne.symm here)]

/-! ### The evaluation by the state of the group -/

section
variable {frame : Half} {g : GroupId} {s : State}

theorem evaluateGroup_unsealed (h : (s.group g).state ≠ .sealed) : evaluateGroup frame g s = s := by
  simp only [evaluateGroup, lowerCountdown_of_unsealed h]
  exact if_neg fun due => h (sealed_of_sealedDue due)

theorem evaluateGroup_waiting (closed : (s.group g).state = .sealed) (waits : 1 < (s.group g).countdown.toNat) :
    evaluateGroup frame g s = s.setGroup g { s.group g with countdown := (s.group g).countdown - 1#8 } := by
  have notDue : lowerByte (s.group g).countdown ≠ 0#8 := fun zero => absurd (lowerByte_eq_zero.mp zero) (not_le.mpr waits)
  simp only [evaluateGroup, lowerCountdown_of_sealed closed, ← lowerByte_of_lt waits, group_setGroup_self]
  exact if_neg fun due => notDue (by simpa [sealedDue, closed] using due)

theorem evaluateGroup_due (closed : (s.group g).state = .sealed) (due : (s.group g).countdown.toNat ≤ 1) :
    evaluateGroup frame g s =
      if (s.group g).outstanding = PortSet.none then commitGroup frame g s
      else deferGroup g (s.setGroup g { s.group g with countdown := 0#8 }) := by
  simp only [evaluateGroup, lowerCountdown_of_sealed closed, lowerByte_of_le due, group_setGroup_self, commitGroup_countdown]
  exact if_pos (by simp [sealedDue, closed])

/-- A deferral after the countdown step, in terms of the record before it (R84, R85). -/
theorem deferGroup_countdown (c : Byte) :
    deferGroup g (s.setGroup g { s.group g with countdown := c }) =
      let r := s.group g
      let count := raiseByte r.deferrals
      if count = r.staleLimit ∧ r.staleReported = false then
        (s.setGroup g { r with countdown := c, deferrals := count, staleReported := true }).notifyEach (deferralPorts r)
          (fun _ => .deferred g count (deferralReason r))
      else s.setGroup g { r with countdown := c, deferrals := count } := by
  simp only [deferGroup, group_setGroup_self, setGroup_setGroup]
  rfl

end

/-- Settles O41, by the state of the group, its countdown and its outstanding set. -/
theorem groupEvaluationCommitsOrDefers : Obligations.GroupEvaluationCommitsOrDefers := by
  refine fun g s => ⟨fun before w after split closed open_ opened owed => ?_, fun none_ => ?_⟩
  · intro u r count holdouts
    rw [groupEvaluation_owed split closed open_ opened owed]
    refine congrArg Host.Outcome.next ?_
    by_cases idles : s.mode ≠ .running ∨ w.void = true
    · rw [actsAt_eq_false idles, if_neg Bool.false_ne_true, if_pos (idles.imp_right .inl)]
    have acts : s.actsAt w = true := by simpa [actsAt_eq_true] using idles
    rw [acts, if_pos rfl]
    by_cases unsealed : r.state ≠ .sealed
    · rw [if_pos (.inr (.inr unsealed))]
      exact evaluateGroup_unsealed (s := u) unsealed
    rw [if_neg (by tauto)]
    by_cases waits : 1 < r.countdown.toNat
    · rw [if_pos waits]
      exact evaluateGroup_waiting (s := u) (not_not.mp unsealed) waits
    rw [if_neg waits]
    refine (evaluateGroup_due (s := u) (not_not.mp unsealed) (not_lt.mp waits)).trans
      (ite_congr rfl (fun _ => rfl) fun owes => ?_)
    have counted : raiseByte r.deferrals = count := raiseByte_eq _
    have reason : deferralReason r = .acks := if_neg owes
    rw [← counted, ← reason]
    exact deferGroup_countdown (s := u) 0#8
  · exact groupEvaluation_notOwed fun w ⟨before, after, split, closed, open_⟩ => none_ before w after split closed open_

end Sys2Proof.Proofs
end

section
namespace Sys2Proof.Proofs

open Sys2Proof Sys2Proof.Machine

/-! ## The evaluation of a bundle (R88 to R90, R95) -/

/-! ### The countdown step of every SEALED member (R81) -/

/-- A SEALED member of a bundle. -/
def sealedIn (s : State) (b : BundleId) (g : GroupId) : Bool := inSet (s.bundle b) g && (s.group g).state == .sealed

/-- The SEALED members of a bundle, in increasing order. -/
def sealedMembers (s : State) (b : BundleId) : List GroupId := allGroups.filter (sealedIn s b)

/-- The SEALED members whose countdown this evaluation brings to 0, in increasing order. -/
def dueMembers (s : State) (b : BundleId) : List GroupId :=
  allGroups.filter fun g => sealedIn s b g && decide ((s.group g).countdown.toNat ≤ 1)

/-- Whether a bundle commits at its evaluation, from the records before the countdown step (R88). -/
def BundleReady (s : State) (b : BundleId) : Prop :=
  (∀ g, inSet (s.bundle b) g = true → (s.group g).state ≠ .staging) ∧ (∃ g, sealedIn s b g = true)
    ∧ ∀ g, sealedIn s b g = true → (s.group g).countdown.toNat ≤ 1 ∧ (s.group g).outstanding = PortSet.none

/-- The countdown step of a bundle's evaluation. -/
def countedDown (s : State) (b : BundleId) : State := (members (s.bundle b)).foldl (fun t g => lowerCountdown g t) s

section
variable {s : State} {b : BundleId}

theorem sealedIn_eq_true {g : GroupId} :
    sealedIn s b g = true ↔ inSet (s.bundle b) g = true ∧ (s.group g).state = .sealed := by
  simp [sealedIn]

theorem mem_sealedMembers {g : GroupId} : g ∈ sealedMembers s b ↔ sealedIn s b g = true := by
  simp [sealedMembers, mem_allGroups]

theorem nodup_sealedMembers : (sealedMembers s b).Nodup := nodup_allGroups.filter _

theorem mem_dueMembers {g : GroupId} :
    g ∈ dueMembers s b ↔ sealedIn s b g = true ∧ (s.group g).countdown.toNat ≤ 1 := by
  simp [dueMembers, mem_allGroups]

theorem nodup_dueMembers : (dueMembers s b).Nodup := nodup_allGroups.filter _

theorem countedDown_eq : countedDown s b = { s with groups := (countedDown s b).groups } :=
  (foldl_lowerCountdown (members (s.bundle b)) s).1

theorem state_countedDown (g : GroupId) : ((countedDown s b).group g).state = (s.group g).state :=
  ((foldl_lowerCountdown (members (s.bundle b)) s).2 g).1

theorem group_countedDown (g : GroupId) :
    (countedDown s b).group g =
      if sealedIn s b g = true then { s.group g with countdown := lowerByte (s.group g).countdown } else s.group g := by
  rw [countedDown, group_foldl
    (change := fun r => if r.state = .sealed then { r with countdown := lowerByte r.countdown } else r)
    (fun t g h => group_lowerCountdown g h t) _ (nodup_members _)]
  by_cases member : inSet (s.bundle b) g = true
  · by_cases closed : (s.group g).state = .sealed
    · rw [if_pos ((mem_members _ _).mpr member), if_pos closed, if_pos (sealedIn_eq_true.mpr ⟨member, closed⟩)]
    · rw [if_pos ((mem_members _ _).mpr member), if_neg closed, if_neg fun h => closed (sealedIn_eq_true.mp h).2]
  · rw [if_neg fun h => member ((mem_members _ _).mp h), if_neg fun h => member (sealedIn_eq_true.mp h).1]

/-! ### The commit or the deferrals (R88, R89) -/

theorem bundleCommits_countedDown : bundleCommits (countedDown s b) (members (s.bundle b)) = true ↔ BundleReady s b := by
  have each : ∀ g, sealedIn s b g = true →
      (((countedDown s b).group g).countdown = 0#8 ↔ (s.group g).countdown.toNat ≤ 1)
      ∧ ((countedDown s b).group g).outstanding = (s.group g).outstanding := fun g h => by
    rw [group_countedDown, if_pos h]
    exact ⟨lowerByte_eq_zero, rfl⟩
  simp only [bundleCommits, Bool.and_eq_true, List.all_eq_true, List.any_eq_true, mem_members, state_countedDown,
    Bool.or_eq_true, bne_iff_ne, beq_iff_eq, and_assoc]
  refine and_congr Iff.rfl (and_congr (exists_congr fun g => sealedIn_eq_true.symm) (forall_congr' fun g => ?_))
  constructor
  · intro h closed
    obtain ⟨member, state⟩ := sealedIn_eq_true.mp closed
    obtain ⟨due, nothing⟩ := (h member).resolve_left (not_not.mpr state)
    exact ⟨(each g closed).1.mp due, (each g closed).2 ▸ nothing⟩
  · intro h member
    by_cases state : (s.group g).state = .sealed
    · have closed := sealedIn_eq_true.mpr ⟨member, state⟩
      obtain ⟨due, nothing⟩ := h closed
      exact .inr ⟨(each g closed).1.mpr due, (each g closed).2.trans nothing⟩
    · exact .inl state

theorem evaluateBundle_ready (frame : Half) (ready : BundleReady s b) :
    evaluateBundle frame b s = (sealedMembers s b).foldl (fun t g => commitGroup frame g t) s := by
  have closed : (members (s.bundle b)).filter (fun g => ((countedDown s b).group g).state == .sealed) = sealedMembers s b := by
    simp only [members, List.filter_filter, state_countedDown]
    exact List.filter_congr fun g _ => Bool.and_comm _ _
  have evaluated : evaluateBundle frame b s =
      (sealedMembers s b).foldl (fun t g => commitGroup frame g t) (countedDown s b) :=
    (if_pos (bundleCommits_countedDown.mpr ready)).trans (by rw [← closed]; rfl)
  rw [evaluated]
  refine foldl_commitGroup_congr frame nodup_sealedMembers countedDown_eq fun g => ?_
  rw [group_countedDown]
  simp only [mem_sealedMembers]
  split <;> rfl

theorem evaluateBundle_notReady (frame : Half) (held : ¬ BundleReady s b) :
    evaluateBundle frame b s = (dueMembers s b).foldl (fun t g => deferGroup g t) (countedDown s b) := by
  have due : (members (s.bundle b)).filter (fun g => sealedDue ((countedDown s b).group g)) = dueMembers s b := by
    simp only [members, List.filter_filter]
    refine List.filter_congr fun g _ => ?_
    rw [Bool.eq_iff_iff]
    simp only [Bool.and_eq_true, decide_eq_true_eq, sealedDue, beq_iff_eq, group_countedDown, sealedIn_eq_true]
    by_cases closed : inSet (s.bundle b) g = true ∧ (s.group g).state = .sealed
    · simp [closed, lowerByte_eq_zero]
    · simp only [if_neg closed]
      tauto
  refine (if_neg (mt bundleCommits_countedDown.mp held)).trans ?_
  rw [← due]
  rfl

end

/-! ### Deferrals (R84, R85) -/

/-- Whether the deferral of a group is reported to a port: the count first equals the stale limit, and the port is the sealer
or owed (R85). -/
def reportsTo (r : Group) (q : Port) : Bool :=
  !r.staleReported && raiseByte r.deferrals == r.staleLimit && (r.sealer == some q || r.outstanding.get q)

theorem mem_deferralPorts (r : Group) (q : Port) :
    q ∈ deferralPorts r ↔ r.sealer = some q ∨ r.outstanding.get q = true := by
  simp only [deferralPorts, List.mem_append, Option.mem_toList, List.mem_filter, Port.mem_all, true_and, Bool.and_eq_true,
    bne_iff_ne]
  tauto

theorem nodup_deferralPorts (r : Group) : (deferralPorts r).Nodup := by
  refine List.Nodup.append ?_ (nodup_portAll.filter _) fun q sealer_ owed => ?_
  · cases r.sealer <;> simp
  · simp [Option.mem_toList.mp sealer_] at owed

theorem portUnit_deferGroup (g : GroupId) (s : State) (q : Port) :
    (deferGroup g s).portUnit q =
      if reportsTo (s.group g) q = true ∧ s.isOnline q = true then
        { s.portUnit q with
          queue := enqueue (s.portUnit q).queue
            (.deferred g (s.group g).staleLimit (deferralReason (s.group g))) s.timing.frameNumber }
      else s.portUnit q := by
  unfold deferGroup
  by_cases first : raiseByte (s.group g).deferrals = (s.group g).staleLimit ∧ (s.group g).staleReported = false
  · have told : reportsTo (s.group g) q = true ↔ q ∈ deferralPorts (s.group g) := by
      simp [reportsTo, first, mem_deferralPorts]
    simp only [if_pos first, told]
    rw [portUnit_notifyEach (nodup_deferralPorts _), first.1]
    rfl
  · have told : reportsTo (s.group g) q = false := by
      refine Bool.eq_false_iff.mpr fun h => first ?_
      simp only [reportsTo, Bool.and_eq_true, Bool.not_eq_true', beq_iff_eq] at h
      obtain ⟨⟨unreported, reached⟩, -⟩ := h
      exact ⟨reached, unreported⟩
    simp only [if_neg first, told, Bool.false_eq_true, false_and, if_false]
    rfl

/-- What a port's queue gets of the deferrals of some groups, whose records are those of `r` but for the countdowns. -/
theorem portUnit_foldl_deferGroup {gs : List GroupId} (nodup : gs.Nodup) {s : State} {r : GroupId → Group} {c : Byte}
    (records : ∀ g ∈ gs, s.group g = { r g with countdown := c }) (q : Port) :
    (gs.foldl (fun t g => deferGroup g t) s).portUnit q =
      { s.portUnit q with
        queue :=
          if s.isOnline q then
            (gs.filter fun g => reportsTo (r g) q).foldl
              (fun queue g => enqueue queue (.deferred g (r g).staleLimit (deferralReason (r g))) s.timing.frameNumber)
              (s.portUnit q).queue
          else (s.portUnit q).queue } := by
  induction gs generalizing s with
  | nil => simp
  | cons g rest ih =>
    obtain ⟨apart, nodup⟩ := List.nodup_cons.mp nodup
    obtain ⟨first, others⟩ := List.forall_mem_cons.mp records
    have kept : ∀ h ∈ rest, (deferGroup g s).group h = { r h with countdown := c } := fun h hh => by
      rw [group_deferGroup, if_neg fun (same : g = h) => apart (same ▸ hh)]
      exact others h hh
    have timing : (deferGroup g s).timing = s.timing := by rw [deferGroup_eq]
    rw [List.foldl_cons, ih nodup kept, isOnline_deferGroup, timing, portUnit_deferGroup, first]
    have reported : reportsTo { r g with countdown := c } q = reportsTo (r g) q := rfl
    rw [reported]
    by_cases online : s.isOnline q = true
    · by_cases told : reportsTo (r g) q = true
      · rw [if_pos ⟨told, online⟩, if_pos online, if_pos online,
          List.filter_cons_of_pos (p := fun g => reportsTo (r g) q) told]
        rfl
      · rw [if_neg fun h => told h.1, if_pos online, if_pos online,
          List.filter_cons_of_neg (p := fun g => reportsTo (r g) q) told]
    · rw [if_neg fun h => online h.2, if_neg online, if_neg online]

/-- Deferrals change group records and port queues only. -/
theorem foldl_deferGroup_eq (gs : List GroupId) (s : State) :
    gs.foldl (fun t g => deferGroup g t) s =
      { s with
        groups := (gs.foldl (fun t g => deferGroup g t) s).groups
        ports := (gs.foldl (fun t g => deferGroup g t) s).ports } := by
  induction gs generalizing s with
  | nil => rfl
  | cons g rest ih =>
    rw [List.foldl_cons, ih (deferGroup g s), deferGroup_eq g s]

/-! ### A bundle held back (R89) -/

/-- A bundle's evaluation that commits nothing: the countdowns, then the deferrals. -/
def heldBack (s : State) (b : BundleId) : State := (dueMembers s b).foldl (fun t g => deferGroup g t) (countedDown s b)

section
variable {s : State} {b : BundleId}

/-- A bundle held back changes group records and port queues only. -/
theorem heldBack_eq : heldBack s b = { s with groups := (heldBack s b).groups, ports := (heldBack s b).ports } :=
  calc
    heldBack s b = { countedDown s b with groups := (heldBack s b).groups, ports := (heldBack s b).ports } :=
      foldl_deferGroup_eq _ _
    _ = { s with groups := (heldBack s b).groups, ports := (heldBack s b).ports } := by rw [countedDown_eq]

theorem group_heldBack (g : GroupId) :
    (heldBack s b).group g =
      if sealedIn s b g = false then s.group g
      else if 1 < (s.group g).countdown.toNat then { s.group g with countdown := (s.group g).countdown - 1#8 }
      else
        { s.group g with
          countdown := 0#8
          deferrals := raiseByte (s.group g).deferrals
          staleReported := (s.group g).staleReported || raiseByte (s.group g).deferrals == (s.group g).staleLimit } := by
  have deferred := group_foldl
    (change := fun r => { r with
      deferrals := raiseByte r.deferrals
      staleReported := r.staleReported || raiseByte r.deferrals == r.staleLimit })
    (fun t g h => group_deferGroup g h t) (dueMembers s b) nodup_dueMembers (countedDown s b) g
  rw [heldBack, deferred, group_countedDown]
  by_cases closed : sealedIn s b g = true
  · have member : ¬ sealedIn s b g = false := by simp [closed]
    rw [if_pos closed, if_neg member]
    by_cases waits : 1 < (s.group g).countdown.toNat
    · rw [if_pos waits, if_neg fun due => absurd (mem_dueMembers.mp due).2 (not_le.mpr waits), lowerByte_of_lt waits]
    · rw [if_neg waits, if_pos (mem_dueMembers.mpr ⟨closed, not_lt.mp waits⟩), lowerByte_of_le (not_lt.mp waits)]
  · rw [if_neg closed, if_pos (Bool.eq_false_iff.mpr closed), if_neg fun due => closed (mem_dueMembers.mp due).1]

/-- What a port's queue gets of a bundle held back: DEFERRED of each due member that reports to it, in group order. -/
theorem portUnit_heldBack (q : Port) :
    (heldBack s b).portUnit q =
      { s.portUnit q with
        queue :=
          if s.isOnline q then
            ((dueMembers s b).filter fun g => reportsTo (s.group g) q).foldl
              (fun queue g => enqueue queue (.deferred g (s.group g).staleLimit (deferralReason (s.group g)))
                s.timing.frameNumber)
              (s.portUnit q).queue
          else (s.portUnit q).queue } := by
  have due : ∀ g ∈ dueMembers s b, (countedDown s b).group g = { s.group g with countdown := 0#8 } := fun g hg => by
    obtain ⟨closed, reached⟩ := mem_dueMembers.mp hg
    rw [group_countedDown, if_pos closed, lowerByte_of_le reached]
  have unit : (countedDown s b).portUnit q = s.portUnit q := by rw [countedDown_eq]; rfl
  have online : (countedDown s b).isOnline q = s.isOnline q := by rw [countedDown_eq]; rfl
  have timing : (countedDown s b).timing = s.timing := by rw [countedDown_eq]
  rw [heldBack, portUnit_foldl_deferGroup nodup_dueMembers due q, unit, online, timing]

end

/-- Settles O42: ready, every SEALED member commits; not ready, the bundle is held back. -/
theorem bundleEvaluationCommitsTogether : Obligations.BundleEvaluationCommitsTogether := by
  refine ⟨fun b s before after w split closed open_ opened owed => ?_, fun b s none_ =>
    bundleEvaluation_notOwed fun w ⟨before, after, split, closed, open_⟩ => none_ before w after split closed open_⟩
  intro u isSealed ready
  have evaluated := bundleEvaluation_owed split closed open_ opened owed
  refine ⟨fun idles => ?_, fun running valid h => ?_,
    fun running valid h => ⟨heldBack u b, ?_, heldBack_eq, fun g => ?_, fun q => ?_⟩⟩
  · rw [evaluated, actsAt_eq_false idles, if_neg Bool.false_ne_true]
  · rw [evaluated, if_pos (actsAt_eq_true.mpr ⟨running, valid⟩)]
    exact congrArg _ (evaluateBundle_ready (s := u) w.frame h)
  · rw [evaluated, if_pos (actsAt_eq_true.mpr ⟨running, valid⟩)]
    exact congrArg _ (evaluateBundle_notReady (s := u) w.frame h)
  · have record := group_heldBack (s := u) (b := b) g
    rw [raiseByte_eq] at record
    exact record
  · have reports : (dueMembers u b).filter (fun g => reportsTo (u.group g) q) = allGroups.filter fun g =>
        let r := s.group g
        isSealed g && decide (r.countdown.toNat ≤ 1) && !r.staleReported
          && ((if r.deferrals = 255#8 then 255#8 else r.deferrals + 1#8) == r.staleLimit)
          && (r.sealer == some q || r.outstanding.get q) := by
      rw [dueMembers, List.filter_filter]
      refine List.filter_congr fun g _ => ?_
      rw [Bool.and_comm]
      simp only [reportsTo, raiseByte_eq, Bool.and_assoc]
      rfl
    have queues := portUnit_heldBack (s := u) (b := b) q
    rw [reports] at queues
    exact queues

/-! ## All or none (R88, R89) -/

/-- A bundle's evaluation does nothing to the groups, or it acts on the records as they are (R80). -/
theorem bundleEvaluation_cases (b : BundleId) (s : State) :
    (∃ t, exec (.bundleEvaluation b) s = .next t ∧ ∀ g, t.group g = s.group g)
    ∨ ∃ w boundaries, AtWork s w ∧ w.opened = true ∧ inSet w.bundleEvals b = true ∧ w.void = false ∧ s.mode = .running
        ∧ exec (.bundleEvaluation b) s = .next (evaluateBundle w.frame b { s with boundaries := boundaries }) := by
  by_cases owed : ∃ w, AtWork s w ∧ w.opened = true ∧ inSet w.bundleEvals b = true
  · obtain ⟨w, ⟨before, after, split, closed, open_⟩, opened, owed⟩ := owed
    have evaluated := bundleEvaluation_owed split closed open_ opened owed
    by_cases acts : s.actsAt w = true
    · obtain ⟨running, valid⟩ := actsAt_eq_true.mp acts
      rw [if_pos acts] at evaluated
      exact .inr ⟨w, _, ⟨before, after, split, closed, open_⟩, opened, owed, valid, running, evaluated⟩
    · rw [if_neg acts] at evaluated
      exact .inl ⟨_, evaluated, fun _ => rfl⟩
  · refine .inl ⟨s, bundleEvaluation_notOwed fun w at_ => ?_, fun _ => rfl⟩
    by_contra both
    rw [not_or, Bool.not_eq_false, Bool.not_eq_false] at both
    exact owed ⟨w, at_, both⟩

theorem group_foldl_commitGroup (frame : Half) (s : State) (b : BundleId) (g : GroupId) :
    ((sealedMembers s b).foldl (fun t g => commitGroup frame g t) s).group g =
      if sealedIn s b g = true then committedRecord frame (s.group g) else s.group g := by
  rw [group_foldl (fun t g h => group_commitGroup frame g h t) _ nodup_sealedMembers]
  simp only [mem_sealedMembers]

theorem epoch_heldBack (s : State) (b : BundleId) (g : GroupId) : ((heldBack s b).group g).epoch = (s.group g).epoch := by
  rw [group_heldBack]
  split_ifs <;> rfl

/-- Ready, every SEALED member takes the next epoch and becomes IDLE; not ready, no epoch changes (R88, R89). -/
theorem evaluateBundle_allOrNone (frame : Half) (b : BundleId) (s : State) :
    (∀ g, ((evaluateBundle frame b s).group g).epoch = (s.group g).epoch)
    ∨ (∀ g, inSet (s.bundle b) g = true → (s.group g).state ≠ .staging)
      ∧ ∀ g, if inSet (s.bundle b) g = true ∧ (s.group g).state = .sealed then
            ((evaluateBundle frame b s).group g).epoch = nextEpoch (s.group g).epoch
              ∧ ((evaluateBundle frame b s).group g).state = .idle
          else (evaluateBundle frame b s).group g = s.group g := by
  by_cases ready : BundleReady s b
  · rw [evaluateBundle_ready frame ready]
    refine .inr ⟨ready.1, fun g => ?_⟩
    rw [group_foldl_commitGroup]
    split
    · next member =>
      rw [if_pos (sealedIn_eq_true.mpr member)]
      exact ⟨rfl, rfl⟩
    · next other => exact if_neg (mt sealedIn_eq_true.mp other)
  · rw [evaluateBundle_notReady frame ready]
    exact .inl (epoch_heldBack s b)

/-- Settles O43: the evaluation does nothing to the groups, or it acts on all SEALED members or none. -/
theorem bundleMembersCommitAllOrNone : Obligations.BundleMembersCommitAllOrNone := by
  intro b s t step
  rcases bundleEvaluation_cases b s with ⟨t', idles, same⟩ | ⟨w, boundaries, at_, opened, owed, valid, running, acts⟩
  · obtain rfl : t' = t := Host.Outcome.next.inj (idles.symm.trans step)
    exact ⟨.inl fun g => by rw [same], fun _ => same⟩
  · obtain rfl := Host.Outcome.next.inj (acts.symm.trans step)
    refine ⟨(evaluateBundle_allOrNone w.frame b { s with boundaries := boundaries }).imp_right fun all => ⟨running, all⟩,
      fun idles => ?_⟩
    rcases idles with stopped | nothing
    · exact absurd running stopped
    · rcases nothing w at_ with unopened | notOwed | void
      · simp [opened] at unopened
      · simp [owed] at notOwed
      · simp [valid] at void

end Sys2Proof.Proofs
end

section
namespace Sys2Proof.Proofs

open Sys2Proof Sys2Proof.Machine

/-! ## SUBSCRIBE and ACK (R103, R104, R109) -/

theorem chosenSubscription_eq_none {mode : Byte} (h : 4 ≤ mode.toNat) : chosenSubscription mode = none := by
  have ne : ∀ b : Byte, b.toNat < 4 → mode ≠ b := fun b low same => absurd (same ▸ h) (not_le.mpr low)
  simp [chosenSubscription, ne]

/-- The modes that a port may choose are those of 10.4 but for LAPSED (R103). -/
theorem chosenSubscription_subscriptionCode {new : Subscription} (h : new ≠ .lapsed) :
    chosenSubscription (subscriptionCode new) = some new := by
  cases new with
  | lapsed => exact absurd rfl h
  | none | observe | ackAll | ackMarked => rfl

/-- The chosen modes that leave a holdout in the outstanding set are the acknowledgment modes (R104). -/
theorem releasesPort_eq {new : Subscription} (h : new ≠ .lapsed) :
    releasesPort new = !(new == .ackAll || new == .ackMarked) := by
  cases new with
  | lapsed => exact absurd rfl h
  | none | observe | ackAll | ackMarked => rfl

/-- Settles O27, by the group and the mode that the arguments name. -/
theorem subscribeChangesOwnSubscription : Obligations.SubscribeChangesOwnSubscription := by
  intro p tag group mode s taken
  have answers : ∀ {t : State} {status : Status} {data : List Byte},
      subscribeReply p group mode (s.endTransaction p) = answer (t.endTransaction p) status data →
        exec (.subscribe p tag group mode) s = .next (answered p tag status data t) :=
    takeCommand_answered taken rfl
  refine ⟨fun refused => answers (t := s) ?_, fun g new here chosen code => ?_⟩
  · rw [subscribeReply]
    rcases refused with high | bad
    · rw [groupOf_eq_none.mpr high]
    · rw [chosenSubscription_eq_none bad]
      split <;> rfl
  · subst here code
    intro r inSetBefore acknowledges
    have releases : releasesPort new = !acknowledges := releasesPort_eq chosen
    refine answers ?_
    simp only [subscribeReply, groupOf_groupByte, chosenSubscription_subscriptionCode chosen, releases, Bool.not_not]
    rfl

/-- ACK past the mode and the group, by the caller's standing and the epoch it names (R109). -/
def ackGroup (p : Port) (epoch : Half) (g : GroupId) (s : State) : Reply :=
  if (s.group g).outstanding.get p = false then answer s .notOwed (ackData p g s)
  else if epoch ≠ (s.group g).epoch then answer s .stale (ackData p g s)
  else
    let s := s.setGroup g { s.group g with outstanding := (s.group g).outstanding.set p false }
    answer s .ok (ackData p g s)

theorem ackReply_eq (p : Port) (group : Byte) (epoch : Half) :
    ackReply p group epoch = modeChecked serving (groupChecked group (ackGroup p epoch)) := by
  funext s
  unfold ackReply modeChecked
  cases s.mode <;> rfl

/-- Settles O28: past the mode and the group the answer is that of `ackGroup`, by the caller's standing. -/
theorem ackRemovesCallerForCurrentEpoch : Obligations.AckRemovesCallerForCurrentEpoch := by
  intro p tag group epoch s taken
  have accepted : Command.ack.accepts 3 = true := rfl
  refine ⟨fun closed => ?_, fun config starting high => ?_, fun g here config starting => ?_⟩
  · exact takeCommand_mode taken accepted (ackReply_eq p group epoch) (serving_eq_false closed)
  · exact takeCommand_groupArgument taken accepted (ackReply_eq p group epoch) (serving_eq_true config starting) high
  · subst here
    intro r data
    have answers : ∀ {t : State} {status : Status} {data : List Byte},
        ackGroup p epoch g (s.endTransaction p) = answer (t.endTransaction p) status data →
          exec (.ack p tag (groupByte g) epoch) s = .next (answered p tag status data t) :=
      takeCommand_group taken accepted (ackReply_eq p _ epoch) (serving_eq_true config starting)
    refine ⟨fun free => answers (if_pos free), fun owes other => answers ?_, fun owes current => answers ?_⟩
    · exact (if_neg (by simpa using owes)).trans (if_pos other)
    · refine (if_neg (by simpa using owes)).trans ((if_neg (not_not.mpr current)).trans ?_)
      simp only [ackData, group_setGroup_self]
      rfl

end Sys2Proof.Proofs
end

section
namespace Sys2Proof.Proofs

open Sys2Proof Sys2Proof.Machine

/-! ## What the ports hold: responses, sessions, subscriptions, obligations and the claim

Most of what a block does leaves all of it alone (`HoldingsKept`). What remains are the few changes of `Access`, which a
command makes for its own port, the lapse of a group's holdouts, and the device reset (`exec_dealing`). -/

/-- A port unit with the same response and session: its queue, its transaction and attention enable may differ. -/
structure SameSession (u v : PortUnit) : Prop where
  response : v.response = u.response
  session : v.session = u.session
  sessionNumber : v.sessionNumber = u.sessionNumber

/-- A port keeps its response, its session and its subscriptions. -/
structure LeftAlone (p : Port) (s t : State) : Prop where
  unit : SameSession (s.portUnit p) (t.portUnit p)
  subscriptions : ∀ g, (t.group g).subscriptions.get p = (s.group g).subscriptions.get p

/-- The modes that owe acknowledgments (R102, R107). -/
abbrev Acknowledges (m : Subscription) : Prop := m = .ackAll ∨ m = .ackMarked

/-- Every port is left alone, only ports subscribed for it come to owe an acknowledgment, and the claim stays in CONFIG with
its port or is given up. -/
structure HoldingsKept (s t : State) : Prop where
  alone : ∀ p, LeftAlone p s t
  owing : ∀ g p, (t.group g).outstanding.get p = true →
    (s.group g).outstanding.get p = true ∨ Acknowledges ((s.group g).subscriptions.get p)
  claim : ∀ p, t.claim = some p → s.claim = some p ∧ (s.mode = .config → t.mode = .config)

theorem LeftAlone.refl (p : Port) (s : State) : LeftAlone p s s := ⟨⟨rfl, rfl, rfl⟩, fun _ => rfl⟩

theorem LeftAlone.trans {p : Port} {s t u : State} (h : LeftAlone p s t) (k : LeftAlone p t u) : LeftAlone p s u where
  unit :=
    ⟨k.unit.response.trans h.unit.response, k.unit.session.trans h.unit.session,
      k.unit.sessionNumber.trans h.unit.sessionNumber⟩
  subscriptions g := (k.subscriptions g).trans (h.subscriptions g)

theorem LeftAlone.isOnline {p : Port} {s t : State} (h : LeftAlone p s t) : t.isOnline p = s.isOnline p := by
  rw [State.isOnline, h.unit.session, State.isOnline]

theorem HoldingsKept.refl (s : State) : HoldingsKept s s :=
  ⟨fun p => .refl p s, fun _ _ => .inl, fun _ h => ⟨h, id⟩⟩

theorem HoldingsKept.trans {s t u : State} (h : HoldingsKept s t) (k : HoldingsKept t u) : HoldingsKept s u where
  alone p := (h.alone p).trans (k.alone p)
  owing g p owes := by
    rcases k.owing g p owes with before | able
    · exact h.owing g p before
    · exact .inr ((h.alone p).subscriptions g ▸ able)
  claim p held := by
    obtain ⟨held, config⟩ := k.claim p held
    obtain ⟨held, config'⟩ := h.claim p held
    exact ⟨held, fun m => config (config' m)⟩

/-! ### Updates after which all of it is still kept -/

section
variable {s t : State}

/-- An update of other fields than the ports, the groups, the claim and the mode. -/
theorem kept_of_same {u : State} (h : HoldingsKept s t) (ports : u.ports = t.ports) (groups : u.groups = t.groups)
    (claim : u.claim = t.claim) (mode : u.mode = t.mode) : HoldingsKept s u := by
  refine h.trans ⟨fun p => ⟨?_, fun g => ?_⟩, fun g p owes => .inl ?_, fun p held => ⟨claim ▸ held, mode.trans⟩⟩
  · rw [State.portUnit, State.portUnit, ports]
    exact ⟨rfl, rfl, rfl⟩
  · rw [State.group, State.group, groups]
  · rwa [State.group, groups] at owes

theorem kept_setPort {p : Port} {u : PortUnit} (same : SameSession (t.portUnit p) u) (h : HoldingsKept s t) :
    HoldingsKept s (t.setPort p u) := by
  refine h.trans ⟨fun q => ⟨?_, fun _ => rfl⟩, fun _ _ => .inl, fun _ held => ⟨held, id⟩⟩
  rw [portUnit_setPort]
  split
  · next here => exact here ▸ same
  · exact ⟨rfl, rfl, rfl⟩

theorem kept_setGroup {g : GroupId} {r : Group} (subscriptions : r.subscriptions = (t.group g).subscriptions)
    (owing : ∀ p, r.outstanding.get p = true →
      (t.group g).outstanding.get p = true ∨ Acknowledges ((t.group g).subscriptions.get p))
    (h : HoldingsKept s t) : HoldingsKept s (t.setGroup g r) := by
  refine h.trans ⟨fun p => ⟨⟨rfl, rfl, rfl⟩, fun k => ?_⟩, fun k p owes => ?_, fun _ held => ⟨held, id⟩⟩
  · rw [group_setGroup]
    split
    · next here => rw [subscriptions, here]
    · rfl
  · rw [group_setGroup] at owes
    split at owes
    · next here => exact here ▸ owing p owes
    · exact .inl owes

/-- A group record replaced with the same subscriptions and holdouts. -/
theorem kept_regroup {g : GroupId} {r : Group} (subscriptions : r.subscriptions = (t.group g).subscriptions)
    (outstanding : r.outstanding = (t.group g).outstanding) (h : HoldingsKept s t) : HoldingsKept s (t.setGroup g r) :=
  kept_setGroup subscriptions (fun _ owes => .inl (outstanding ▸ owes)) h

theorem kept_foldl {α : Type} {f : State → α → State} {l : List α}
    (each : ∀ {t} a, HoldingsKept s t → HoldingsKept s (f t a)) (h : HoldingsKept s t) :
    HoldingsKept s (l.foldl f t) := by
  induction l generalizing t with
  | nil => exact h
  | cons a rest ih => exact ih (each a h)

/-! ### Notices (R170) -/

theorem kept_notify {p : Port} {n : Notice} (h : HoldingsKept s t) : HoldingsKept s (t.notify p n) := by
  unfold State.notify
  split
  · exact kept_setPort ⟨rfl, rfl, rfl⟩ h
  · exact h

theorem kept_notifyOptional {p : Option Port} {n : Notice} (h : HoldingsKept s t) :
    HoldingsKept s (t.notifyOptional p n) := by
  cases p with
  | none => exact h
  | some p => exact kept_notify h

theorem kept_notifyEach {ports : List Port} {n : Port → Notice} (h : HoldingsKept s t) :
    HoldingsKept s (t.notifyEach ports n) :=
  kept_foldl (fun _ => kept_notify) h

/-! ### Leases and discards (R43, R45, R50, R72) -/

theorem kept_freeLease {g : GroupId} {event : FreeingEvent} (h : HoldingsKept s t) :
    HoldingsKept s (freeLease g event t) := by
  cases queue : (t.group g).waitQueue with
  | nil => rw [freeLease_nil queue]; exact kept_regroup rfl rfl h
  | cons next rest => rw [freeLease_cons queue]; exact kept_notify (kept_regroup rfl rfl h)

theorem kept_discardSet {g : GroupId} (h : HoldingsKept s t) : HoldingsKept s (discardSet g t) :=
  kept_regroup (t := t.mapEntries (discardEntry g)) rfl rfl (kept_of_same h rfl rfl rfl rfl)

theorem kept_giveUpLease {g : GroupId} {event : FreeingEvent} (h : HoldingsKept s t) :
    HoldingsKept s (giveUpLease g event t) := by
  unfold giveUpLease
  split
  · exact kept_freeLease (kept_discardSet h)
  · exact kept_freeLease h

theorem kept_revokeLease {g : GroupId} (h : HoldingsKept s t) : HoldingsKept s (revokeLease g t) := by
  unfold revokeLease
  simp only
  split
  · exact kept_giveUpLease (kept_notifyOptional (kept_notifyOptional h))
  · exact kept_giveUpLease (kept_notifyOptional h)

theorem kept_advancePatience {g : GroupId} (h : HoldingsKept s t) : HoldingsKept s (advancePatience g t) := by
  unfold advancePatience
  simp only
  split
  · split
    · exact kept_revokeLease (kept_regroup rfl rfl h)
    · exact kept_regroup rfl rfl h
  · exact h

/-! ### Modes and the teardown (R36, R142, R153) -/

/-- A change of mode that does not leave CONFIG while the claim is held. -/
theorem kept_changeMode {new : Mode} (stays : ∀ p, t.claim = some p → t.mode = .config → new = .config)
    (h : HoldingsKept s t) : HoldingsKept s (changeMode new t) :=
  kept_notifyEach (h.trans
    ⟨fun _ => ⟨⟨rfl, rfl, rfl⟩, fun _ => rfl⟩, fun _ _ => .inl, fun p held => ⟨held, stays p held⟩⟩)

theorem kept_teardownDiscardNotice {g : GroupId} {r : Group} (h : HoldingsKept s t) :
    HoldingsKept s (teardownDiscardNotice g r t) := by
  unfold teardownDiscardNotice
  split
  · exact h
  · exact kept_notifyOptional h
  · exact kept_notifyOptional h

theorem kept_teardownGroup {g : GroupId} (h : HoldingsKept s t) : HoldingsKept s (teardownGroup t g) := by
  unfold teardownGroup
  exact kept_setGroup rfl (by simp)
    (kept_discardSet (kept_teardownDiscardNotice (kept_notifyEach (kept_notifyOptional h))))

theorem kept_teardownAll (h : HoldingsKept s t) : HoldingsKept s (teardownAll t) :=
  kept_foldl (fun _ => kept_teardownGroup) h

theorem kept_tellTiming {m : ModeMessage} (h : HoldingsKept s t) : HoldingsKept s (tellTiming m t) :=
  kept_of_same h rfl rfl rfl rfl

theorem kept_voidWork (h : HoldingsKept s t) : HoldingsKept s t.voidWork := kept_of_same h rfl rfl rfl rfl

theorem kept_enterConfig (h : HoldingsKept s t) : HoldingsKept s (enterConfig t) :=
  kept_tellTiming (kept_teardownAll (kept_changeMode (fun _ _ _ => rfl) (kept_voidWork h)))

/-! ### Commits and deferrals (R84, R92, R93) -/

/-- A commit makes only ports subscribed for it owe an acknowledgment (R93). -/
theorem kept_commitGroup {frame : Half} {g : GroupId} (h : HoldingsKept s t) : HoldingsKept s (commitGroup frame g t) := by
  have entries : HoldingsKept s (t.mapEntries (commitEntry g (nextEpoch (t.group g).epoch))) :=
    kept_of_same h rfl rfl rfl rfl
  have owed : ∀ p, (owing (t.group g).subscriptions (t.group g).marked).get p = true →
      Acknowledges ((t.group g).subscriptions.get p) := fun p owes => by
    rw [get_owing] at owes
    simp only [Bool.or_eq_true, Bool.and_eq_true, beq_iff_eq] at owes
    exact owes.imp_right And.left
  have recorded := kept_setGroup (t := t.mapEntries (commitEntry g (nextEpoch (t.group g).epoch))) (g := g)
    (r := committedRecord frame (t.group g)) rfl (fun p owes => .inr (owed p owes)) entries
  exact kept_of_same (kept_notifyEach recorded) rfl rfl rfl rfl

theorem kept_deferGroup {g : GroupId} (h : HoldingsKept s t) : HoldingsKept s (deferGroup g t) := by
  unfold deferGroup
  simp only
  split
  · exact kept_notifyEach (kept_regroup rfl rfl h)
  · exact kept_regroup rfl rfl h

theorem kept_lowerCountdown {g : GroupId} (h : HoldingsKept s t) : HoldingsKept s (lowerCountdown g t) := by
  by_cases closed : (t.group g).state = .sealed
  · rw [lowerCountdown_of_sealed closed]
    exact kept_regroup rfl rfl h
  · rwa [lowerCountdown_of_unsealed closed]

theorem kept_evaluateGroup {frame : Half} {g : GroupId} (h : HoldingsKept s t) :
    HoldingsKept s (evaluateGroup frame g t) := by
  unfold evaluateGroup
  simp only
  split
  · split
    · exact kept_commitGroup (kept_lowerCountdown h)
    · exact kept_deferGroup (kept_lowerCountdown h)
  · exact kept_lowerCountdown h

theorem kept_evaluateBundle {frame : Half} {b : BundleId} (h : HoldingsKept s t) :
    HoldingsKept s (evaluateBundle frame b t) := by
  have lowered := kept_foldl (l := members (t.bundle b)) (f := fun t g => lowerCountdown g t)
    (fun _ => kept_lowerCountdown) h
  unfold evaluateBundle
  simp only
  split
  · exact kept_foldl (fun _ => kept_commitGroup) lowered
  · exact kept_foldl (fun _ => kept_deferGroup) lowered

/-! ### Boundaries and frame losses (R125, R133) -/

theorem kept_produceBoundary {time : Nat} {frame : Half} {substitute : Option Byte} (h : HoldingsKept s t) :
    HoldingsKept s (produceBoundary time frame substitute t) := by
  have stamped : HoldingsKept s (stampBoundary time frame t) := kept_of_same h rfl rfl rfl rfl
  have told : HoldingsKept s (notifySubstitute substitute (stampBoundary time frame t)) := by
    cases substitute with
    | none => exact stamped
    | some count => exact kept_notifyEach stamped
  exact kept_of_same told rfl rfl rfl rfl

theorem kept_takeEdge (time : Nat) (s : State) : HoldingsKept s (takeEdge time s) := by
  have start := HoldingsKept.refl s
  have later : HoldingsKept s { s with now := time } := kept_of_same start rfl rfl rfl rfl
  unfold takeEdge
  split
  · exact kept_produceBoundary start
  · split
    · unfold judgeEdge
      split
      · exact kept_of_same start rfl rfl rfl rfl
      · split
        · exact kept_produceBoundary (kept_of_same start rfl rfl rfl rfl)
        · exact start
    · exact later
  · split
    · exact kept_produceBoundary (kept_of_same start rfl rfl rfl rfl)
    · exact later
  all_goals exact later

theorem kept_expireWindow (last : Nat) (s : State) : HoldingsKept s (expireWindow last s) := by
  have start := HoldingsKept.refl s
  unfold expireWindow
  simp only
  split
  · exact kept_produceBoundary (kept_of_same start rfl rfl rfl rfl)
  · exact kept_of_same start rfl rfl rfl rfl

theorem kept_handOn {kind : BoundaryKind} {frame : Half} (h : HoldingsKept s t) : HoldingsKept s (handOn kind frame t) :=
  kept_of_same h rfl rfl rfl rfl

theorem kept_takeBoundary {frame : Half} (h : HoldingsKept s t) : HoldingsKept s (takeBoundary frame t) := by
  have entered : ∀ new, t.mode ≠ .config → HoldingsKept s (changeMode new t) :=
    fun _ left => kept_changeMode (fun _ _ config => absurd config left) h
  unfold takeBoundary
  split
  · exact h
  · split
    · exact h
    · next mode => exact kept_handOn (entered .running (by simp [mode]))
    · exact kept_handOn h
    · next mode => exact kept_handOn (entered .running (by simp [mode]))
    · exact kept_handOn (kept_enterConfig h)

theorem kept_takeFrameLoss (h : HoldingsKept s t) : HoldingsKept s (takeFrameLoss t) := by
  unfold takeFrameLoss
  split
  · exact h
  · split
    · next mode => exact kept_changeMode (fun _ _ config => absurd config (by simp [mode])) h
    · exact kept_enterConfig h
    all_goals exact h

end

end Sys2Proof.Proofs
end

section
namespace Sys2Proof.Proofs

open Sys2Proof Sys2Proof.Machine

/-! ### Blocks whose answers keep what the ports hold -/

section
variable {s : State}

theorem kept_modeChecked {modes : Mode → Bool} {body : State → Reply} (h : HoldingsKept s (body s).state) :
    HoldingsKept s (modeChecked modes body s).state := by
  unfold modeChecked
  split
  · exact h
  · exact .refl s

theorem kept_groupChecked {group : Byte} {body : GroupId → State → Reply} (h : ∀ g, HoldingsKept s (body g s).state) :
    HoldingsKept s (groupChecked group body s).state := by
  unfold groupChecked
  split
  · exact .refl s
  · exact h _

theorem kept_entryChecked {index : Byte} {body : Entry → State → Reply} (h : ∀ e, HoldingsKept s (body e s).state) :
    HoldingsKept s (entryChecked index body s).state := by
  unfold entryChecked
  split
  · exact .refl s
  · exact h _

theorem kept_withLease {p : Port} {g : GroupId} {body : State → Reply} (h : HoldingsKept s (body s).state) :
    HoldingsKept s (withLease p g body s).state := by
  unfold withLease
  split
  · exact h
  · exact .refl s

theorem kept_claimed {p : Port} {data : List Byte} {body : State → Reply} (h : HoldingsKept s (body s).state) :
    HoldingsKept s (claimed p data body s).state := by
  rcases claimed_cases p data body s with ⟨_, eq⟩ | ⟨_, _, eq⟩ | ⟨_, _, eq⟩ <;> rw [eq]
  · exact .refl s
  · exact .refl s
  · exact h

end

section
variable (p : Port) (group index : Byte) (s : State)

/-! ### Leases and staged sets -/

theorem kept_leaseReply : HoldingsKept s (leaseReply p group s).state := by
  rw [leaseReply_eq]
  refine kept_modeChecked (kept_groupChecked fun g => ?_)
  unfold leaseGroup
  simp only
  split
  · exact kept_regroup rfl rfl (.refl s)
  · split
    · exact .refl s
    · exact kept_regroup rfl rfl (.refl s)

theorem kept_releaseReply : HoldingsKept s (releaseReply p group s).state := by
  rw [releaseReply_eq]
  refine kept_modeChecked (kept_groupChecked fun g => ?_)
  unfold releaseGroup
  simp only
  split
  · exact kept_giveUpLease (.refl s)
  · split
    · exact kept_regroup rfl rfl (.refl s)
    · exact .refl s

theorem kept_stageValue (words : List Word) (v : ValueEntry) : HoldingsKept s (stageValue p index words v s).state := by
  unfold stageValue
  split
  · exact .refl s
  · split
    · exact .refl s
    · split
      · exact .refl s
      · rename_i staged _
        exact kept_regroup (t := s.setEntry index (writeStaged staged (some (.value v)))) rfl rfl
          (kept_of_same (.refl s) rfl rfl rfl rfl)

theorem kept_stageFan (words : List Word) (f : FanEntry) : HoldingsKept s (stageFan p index words f s).state := by
  unfold stageFan
  split
  · split
    · exact .refl s
    · split
      · exact .refl s
      · split
        · exact .refl s
        · rename_i staged _
          refine kept_regroup (t := writeTargets s staged) rfl rfl ?_
          rw [writeTargets_eq]
          exact kept_of_same (.refl s) rfl rfl rfl rfl
  · exact .refl s

theorem kept_stageReply (words : List Word) : HoldingsKept s (stageReply p index words s).state := by
  rw [stageReply_eq]
  refine kept_modeChecked (kept_entryChecked fun e => kept_withLease ?_)
  split
  · exact .refl s
  all_goals
    split
    · exact kept_stageValue p index s words _
    · exact kept_stageFan p index s words _

theorem kept_unstageReply : HoldingsKept s (unstageReply p index s).state := by
  rw [unstageReply_eq]
  refine kept_modeChecked (kept_entryChecked fun e => kept_withLease ?_)
  split
  · exact .refl s
  · exact kept_regroup rfl rfl (.refl s)
  · split
    · refine kept_regroup (t := unstageAll s (unstageIndices index e)) rfl rfl ?_
      rw [unstageAll_eq]
      exact kept_of_same (.refl s) rfl rfl rfl rfl
    · exact .refl s

theorem kept_sealReply (delay marked : Byte) : HoldingsKept s (sealReply p group delay marked s).state := by
  rw [sealReply_eq]
  refine kept_modeChecked (kept_groupChecked fun g => ?_)
  unfold sealChecked
  split
  · exact .refl s
  · split
    · exact .refl s
    · refine kept_withLease ?_
      split
      · exact .refl s
      all_goals exact kept_regroup rfl rfl (.refl s)

theorem kept_unsealReply : HoldingsKept s (unsealReply p group s).state := by
  rw [unsealReply_eq]
  refine kept_modeChecked (kept_groupChecked fun g => kept_withLease ?_)
  simp only
  split
  · exact kept_regroup rfl rfl (.refl s)
  all_goals exact .refl s

theorem kept_readStagedReply : HoldingsKept s (readStagedReply p index s).state := by
  rw [readStagedReply_eq]
  refine kept_modeChecked (kept_entryChecked fun e => kept_withLease ?_)
  split
  · exact .refl s
  · split <;> exact .refl s

/-! ### Acknowledgments, notices, the claim and the modes -/

theorem kept_ackReply (epoch : Half) : HoldingsKept s (ackReply p group epoch s).state := by
  rw [ackReply_eq]
  refine kept_modeChecked (kept_groupChecked fun g => ?_)
  unfold ackGroup
  split
  · exact .refl s
  · split
    · exact .refl s
    · refine kept_setGroup rfl (fun q owes => .inl ?_) (.refl s)
      rw [PerPort.get_set] at owes
      split at owes
      · cases owes
      · exact owes

theorem kept_fetchReply (n : Byte) : HoldingsKept s (fetchReply p n s).state := by
  unfold fetchReply
  split
  · exact .refl s
  · exact kept_setPort ⟨rfl, rfl, rfl⟩ (.refl s)

/-- The claim given up. -/
theorem kept_unclaimed : HoldingsKept s { s with claim := none } :=
  ⟨fun _ => ⟨⟨rfl, rfl, rfl⟩, fun _ => rfl⟩, fun _ _ => .inl, nofun⟩

theorem kept_releaseClaimReply : HoldingsKept s (releaseClaimReply p s).state := by
  unfold releaseClaimReply
  split
  · exact .refl s
  · split
    · exact kept_unclaimed s
    · exact .refl s

theorem kept_startBody : HoldingsKept s (startBody s).state := by
  unfold startBody
  split
  · exact .refl s
  · exact kept_tellTiming (kept_changeMode nofun (kept_unclaimed s))

theorem kept_stopReply : HoldingsKept s (stopReply s).state := by
  unfold stopReply
  split
  · exact .refl s
  · exact .refl s
  · next mode => exact kept_changeMode (fun _ _ config => absurd config (by simp [mode])) (kept_voidWork (.refl s))
  all_goals exact kept_enterConfig (.refl s)

theorem kept_resumeReply : HoldingsKept s (resumeReply s).state := by
  unfold resumeReply
  split
  · exact kept_of_same (.refl s) rfl rfl rfl rfl
  all_goals exact .refl s

/-! ### The layout, the parameters and the frame settings -/

theorem kept_defineEntryBody (width writers limits : Byte) (words : List Word) :
    HoldingsKept s (defineEntryBody index group width writers limits words s).state := by
  unfold defineEntryBody
  split
  · exact .refl s
  · split
    · exact .refl s
    · split
      · exact .refl s
      · split
        · exact .refl s
        · exact kept_of_same (.refl s) rfl rfl rfl rfl

theorem kept_defineFanBody (writers : Byte) (targets : List Byte) :
    HoldingsKept s (defineFanBody index group writers targets s).state := by
  unfold defineFanBody
  split
  · exact .refl s
  · split
    · exact .refl s
    · exact kept_of_same (.refl s) rfl rfl rfl rfl

theorem kept_deleteEntryBody : HoldingsKept s (deleteEntryBody index s).state := by
  unfold deleteEntryBody
  split
  · exact .refl s
  · exact kept_of_same (.refl s) rfl rfl rfl rfl

theorem kept_defineGroupBody (staleLimit ackDeadline patienceLimit : Byte) :
    HoldingsKept s (defineGroupBody group staleLimit ackDeadline patienceLimit s).state := by
  unfold defineGroupBody
  split
  · exact .refl s
  · split
    · exact .refl s
    · exact kept_regroup rfl rfl (.refl s)

theorem kept_defineBundleBody (bundle : Byte) (list : List Byte) :
    HoldingsKept s (defineBundleBody bundle list s).state := by
  unfold defineBundleBody
  split
  · exact .refl s
  · split
    · exact .refl s
    · split
      · exact .refl s
      · split
        · exact .refl s
        · split
          · exact .refl s
          · exact kept_of_same (.refl s) rfl rfl rfl rfl

theorem kept_setFrameBody (source : Byte) (period : Word) : HoldingsKept s (setFrameBody source period s).state := by
  unfold setFrameBody
  split
  · exact .refl s
  · split
    · exact .refl s
    · exact kept_of_same (.refl s) rfl rfl rfl rfl

end

/-! ### Happenings that are no command of a port -/

section
variable (s : State)

theorem kept_opening : ∃ t, execOpening s = .next t ∧ HoldingsKept s t := by
  refine ⟨_, rfl, ?_⟩
  split
  · exact .refl s
  · split
    · exact .refl s
    · exact kept_of_same (.refl s) rfl rfl rfl rfl

theorem kept_groupEvaluation (g : GroupId) : ∃ t, execGroupEvaluation g s = .next t ∧ HoldingsKept s t := by
  refine ⟨_, rfl, ?_⟩
  split
  · exact .refl s
  · split
    · have taken : HoldingsKept s (s.modifyCurrentWork fun w => { w with groupEvals := dropFrom w.groupEvals g }) :=
        kept_of_same (.refl s) rfl rfl rfl rfl
      simp only
      split
      · exact kept_evaluateGroup taken
      · exact taken
    · exact .refl s

theorem kept_bundleEvaluation (b : BundleId) : ∃ t, execBundleEvaluation b s = .next t ∧ HoldingsKept s t := by
  refine ⟨_, rfl, ?_⟩
  split
  · exact .refl s
  · split
    · have taken : HoldingsKept s (s.modifyCurrentWork fun w => { w with bundleEvals := dropFrom w.bundleEvals b }) :=
        kept_of_same (.refl s) rfl rfl rfl rfl
      simp only
      split
      · exact kept_evaluateBundle taken
      · exact taken
    · exact .refl s

theorem kept_closing : ∃ t, execClosing s = .next t ∧ HoldingsKept s t := by
  refine ⟨_, rfl, ?_⟩
  split
  · exact .refl s
  · split
    · exact kept_of_same (.refl s) rfl rfl rfl rfl
    · exact .refl s

theorem kept_commitPulseEnd : ∃ t, execCommitPulseEnd s = .next t ∧ HoldingsKept s t := by
  refine ⟨_, rfl, ?_⟩
  split
  · exact .refl s
  · exact kept_of_same (.refl s) rfl rfl rfl rfl

theorem kept_patienceStep (g : GroupId) : ∃ t, execPatienceStep g s = .next t ∧ HoldingsKept s t := by
  refine ⟨_, rfl, ?_⟩
  split
  · exact .refl s
  · simp only
    split
    · exact kept_advancePatience (kept_of_same (.refl s) rfl rfl rfl rfl)
    · exact kept_of_same (.refl s) rfl rfl rfl rfl

theorem kept_fsyncEdge (time : Nat) : ∃ t, execFsyncEdge time s = .next t ∧ HoldingsKept s t := by
  refine ⟨_, rfl, ?_⟩
  split
  · exact kept_of_same (.refl s) rfl rfl rfl rfl
  · exact kept_takeEdge _ _

theorem kept_internalTimer : ∃ t, execInternalTimer s = .next t ∧ HoldingsKept s t := by
  refine ⟨_, rfl, ?_⟩
  split
  · exact kept_produceBoundary (kept_of_same (.refl s) rfl rfl rfl rfl)
  · exact kept_produceBoundary (kept_of_same (.refl s) rfl rfl rfl rfl)
  · exact .refl s

theorem kept_windowExpiry : ∃ t, execWindowExpiry s = .next t ∧ HoldingsKept s t := by
  refine ⟨_, rfl, ?_⟩
  split
  · exact kept_expireWindow _ _
  · exact .refl s

theorem kept_frameLoss : ∃ t, execFrameLoss s = .next t ∧ HoldingsKept s t := by
  refine ⟨_, rfl, ?_⟩
  split
  · exact kept_takeFrameLoss (kept_of_same (.refl s) rfl rfl rfl rfl)
  · exact .refl s

theorem kept_boundaryTaken : ∃ t, execBoundaryTaken s = .next t ∧ HoldingsKept s t := by
  refine ⟨_, rfl, ?_⟩
  split
  · exact kept_takeBoundary (kept_of_same (.refl s) rfl rfl rfl rfl)
  · exact .refl s

theorem kept_enterFirst : ∃ t, execEnterFirst s = .next t ∧ HoldingsKept s t := by
  refine ⟨_, rfl, ?_⟩
  split
  · exact kept_of_same (.refl s) rfl rfl rfl rfl
  · exact .refl s

theorem kept_enterStopped : ∃ t, execEnterStopped s = .next t ∧ HoldingsKept s t := by
  refine ⟨_, rfl, ?_⟩
  split
  · exact kept_of_same (.refl s) rfl rfl rfl rfl
  · exact .refl s

theorem kept_csFalls (p : Port) : ∃ t, execCsFalls p s = .next t ∧ HoldingsKept s t := by
  refine ⟨_, rfl, ?_⟩
  split
  · exact kept_setPort ⟨rfl, rfl, rfl⟩ (.refl s)
  all_goals exact .refl s

end

end Sys2Proof.Proofs
end

section
namespace Sys2Proof.Proofs

open Sys2Proof Sys2Proof.Machine

/-! ## What a command changes of its own port's holdings -/

/-- The changes that a command makes of the response, the session, the subscriptions and the claim of its own port. -/
inductive Access (p : Port) (s : State) : State → Prop
  | respond (r : Response) : Access p s (s.respond p r)
  | join (sessionNumber : Byte) (attention : Bool) :
      Access p s (s.setPort p
        { s.portUnit p with session := .online, sessionNumber := sessionNumber, attention := attention })
  | subscribe (g : GroupId) (new : Subscription) (owes : Bool) (online : new ≠ .none → s.isOnline p = true)
      (able : owes = true → Acknowledges new) :
      Access p s (s.setGroup g
        { s.group g with
          subscriptions := (s.group g).subscriptions.set p new
          outstanding := (s.group g).outstanding.set p owes })
  | claim (config : s.mode = .config) (online : s.isOnline p = true) : Access p s { s with claim := some p }
  | leave (unsubscribed : ∀ g, (s.group g).subscriptions.get p = .none) (unclaimed : s.claim ≠ some p) :
      Access p s (closeSession p s)

/-- Changes of one port's own, one after another, between others that keep all holdings. -/
abbrev Accesses (p : Port) : State → State → Prop :=
  Relation.ReflTransGen fun s t => HoldingsKept s t ∨ Access p s t

theorem Accesses.of_kept {p : Port} {s t : State} (h : HoldingsKept s t) : Accesses p s t := .single (.inl h)

theorem Accesses.of_access {p : Port} {s t : State} (h : Access p s t) : Accesses p s t := .single (.inr h)

theorem Access.leftAlone {p q : Port} {s t : State} (h : Access p s t) (other : p ≠ q) : LeftAlone q s t := by
  have unit : ∀ u, LeftAlone q s (s.setPort p u) := fun u => by
    refine ⟨?_, fun _ => rfl⟩
    rw [portUnit_setPort, if_neg other]
    exact ⟨rfl, rfl, rfl⟩
  cases h with
  | respond r => exact unit _
  | join => exact unit _
  | subscribe g new owes =>
    refine ⟨⟨rfl, rfl, rfl⟩, fun h => ?_⟩
    rw [group_setGroup]
    split
    · next here => rw [PerPort.get_set_ne _ _ other, here]
    · rfl
  | claim => exact ⟨⟨rfl, rfl, rfl⟩, fun _ => rfl⟩
  | leave => exact unit _

theorem Accesses.leftAlone {p q : Port} {s t : State} (h : Accesses p s t) (other : p ≠ q) : LeftAlone q s t := by
  induction h with
  | refl => exact .refl q s
  | tail _ last ih => exact ih.trans (last.elim (fun kept => kept.alone q) fun access => access.leftAlone other)

/-! ### Commands of a port -/

theorem accesses_endTransaction (p : Port) (s : State) : Accesses p s (s.endTransaction p) :=
  .of_kept (kept_setPort ⟨rfl, rfl, rfl⟩ (.refl s))

/-- A command of a port, by what its block makes of the state that it finds. -/
theorem accesses_takeCommand {p : Port} {c : Command} {tag : Byte} {L : Nat} {body : State → Reply} {s : State}
    (h : ∀ t, t.isOnline p = true ∨ c.openToOffline = true → Accesses p t (body t).state) :
    Accesses p s (takeCommand p c tag L body s) := by
  have ended := accesses_endTransaction p s
  rcases takeCommand_cases p c tag L body s with eq | ⟨cause, eq⟩ | ⟨_, able, _, eq⟩ <;> rw [eq]
  · exact ended
  · exact ended.tail (.inr (.respond _))
  · have answered := ended.trans (h (s.endTransaction p) (by rwa [isOnline_endTransaction]))
    split
    · exact answered.tail (.inr (.respond _))
    · exact answered

theorem accesses_keeping {p : Port} {c : Command} {tag : Byte} {L : Nat} {body : State → Reply} {s : State}
    (h : ∀ t, HoldingsKept t (body t).state) : Accesses p s (takeCommand p c tag L body s) :=
  accesses_takeCommand fun t _ => .of_kept (h t)

/-- A command whose block answers from the state as it is. -/
theorem accesses_answering {p : Port} {c : Command} {tag : Byte} {L : Nat} {body : State → Reply} {s : State}
    (h : ∀ t, (body t).state = t) : Accesses p s (takeCommand p c tag L body s) :=
  accesses_keeping fun t => by rw [h]; exact .refl t

theorem accesses_joinReply (p : Port) (attention : Byte) (s : State) : Accesses p s (joinReply p attention s).state := by
  unfold joinReply
  split
  · exact .refl
  · simp only
    split
    · exact .refl
    · exact .of_access (.join _ _)

theorem accesses_claimReply {p : Port} {s : State} (online : s.isOnline p = true) :
    Accesses p s (claimReply p s).state := by
  unfold claimReply
  split
  · exact .refl
  · next config =>
    split
    · exact .of_access (.claim (not_not.mp config) online)
    · exact .refl

theorem chosenSubscription_ne_lapsed (mode : Byte) : chosenSubscription mode ≠ some .lapsed := by
  unfold chosenSubscription
  repeat' split
  all_goals simp

theorem accesses_subscribeReply {p : Port} {group mode : Byte} {s : State} (online : s.isOnline p = true) :
    Accesses p s (subscribeReply p group mode s).state := by
  unfold subscribeReply
  split
  · exact .refl
  · split
    · exact .refl
    · rename_i new chosen
      have unlapsed : new ≠ .lapsed := fun lapsed => chosenSubscription_ne_lapsed mode (lapsed ▸ chosen)
      refine .of_access (.subscribe _ new _ (fun _ => online) fun owes => ?_)
      simpa [releasesPort_eq unlapsed] using And.right (Bool.and_eq_true_iff.mp owes)

/-! ### LEAVE (R167) -/

/-- What LEAVE does in a group keeps all holdings, but that the port stands in it no more (R118). -/
theorem leaveGroup_eq (p : Port) (s : State) (g : GroupId) :
    ∃ t, HoldingsKept s t ∧ leaveGroup p s g = t.setGroup g
      { t.group g with
        subscriptions := (t.group g).subscriptions.set p .none
        outstanding := (t.group g).outstanding.set p false } := by
  have left : HoldingsKept s (s.modifyGroup g fun r => { r with waitQueue := r.waitQueue.filter (· != p) }) :=
    kept_regroup rfl rfl (.refl s)
  refine ⟨_, ?_, rfl⟩
  split
  · exact kept_giveUpLease left
  · exact left

theorem accesses_leaveGroup (p : Port) (s : State) (g : GroupId) : Accesses p s (leaveGroup p s g) := by
  obtain ⟨t, kept, eq⟩ := leaveGroup_eq p s g
  rw [eq]
  exact (Accesses.of_kept kept).tail (.inr (.subscribe g .none false (fun h => absurd rfl h) (by simp)))

theorem subscriptions_leaveGroup (p : Port) (s : State) (g h : GroupId) :
    ((leaveGroup p s g).group h).subscriptions.get p = if g = h then .none else (s.group h).subscriptions.get p := by
  obtain ⟨t, kept, eq⟩ := leaveGroup_eq p s g
  rw [eq, group_setGroup]
  split
  · exact PerPort.get_set_self _ _ _
  · exact (kept.alone p).subscriptions h

theorem accesses_foldl_leaveGroup (p : Port) (gs : List GroupId) (s : State) :
    Accesses p s (gs.foldl (leaveGroup p) s) := by
  induction gs generalizing s with
  | nil => exact .refl
  | cons g rest ih => exact (accesses_leaveGroup p s g).trans (ih _)

theorem unsubscribed_foldl_leaveGroup (p : Port) {gs : List GroupId} {s : State} {h : GroupId}
    (left : h ∈ gs ∨ (s.group h).subscriptions.get p = .none) :
    ((gs.foldl (leaveGroup p) s).group h).subscriptions.get p = .none := by
  induction gs generalizing s with
  | nil => simpa using left
  | cons g rest ih =>
    refine ih ?_
    rw [subscriptions_leaveGroup]
    by_cases here : g = h
    · exact .inr (if_pos here)
    · rw [if_neg here]
      exact left.imp_left fun member => (List.mem_cons.mp member).resolve_left (Ne.symm here)

theorem accesses_leaveReply (p : Port) (s : State) : Accesses p s (leaveReply p s).state := by
  have unclaimed : ∀ t : State, HoldingsKept t { t with claim := if t.claim = some p then none else t.claim } := by
    intro t
    split
    · exact kept_unclaimed t
    · exact .refl t
  have left := accesses_foldl_leaveGroup p allGroups s
  have unsubscribed : ∀ g, ((allGroups.foldl (leaveGroup p) s).group g).subscriptions.get p = .none :=
    fun g => unsubscribed_foldl_leaveGroup p (.inl (mem_allGroups g))
  unfold leaveReply
  generalize allGroups.foldl (leaveGroup p) s = t at left unsubscribed ⊢
  refine (left.tail (.inl (unclaimed t))).tail (.inr (.leave unsubscribed ?_))
  dsimp only
  split
  · exact nofun
  · assumption

/-! ### The ack step (R112, R114) -/

/-- A group's holdouts taken out of the outstanding set, their subscriptions LAPSED (R114). -/
def holdoutsLapsed (g : GroupId) (s : State) : State :=
  s.setGroup g { s.group g with outstanding := PortSet.none, subscriptions := lapsedSubscriptions (s.group g) }

/-- The age of a set does not matter to its lapse. -/
theorem holdoutsLapsed_aged (g : GroupId) (s : State) (age : Byte) :
    holdoutsLapsed g (s.setGroup g { s.group g with ackAge := age }) =
      (holdoutsLapsed g s).setGroup g { (holdoutsLapsed g s).group g with ackAge := age } := by
  simp [holdoutsLapsed, lapsedSubscriptions]

theorem kept_lapseGroup {g : GroupId} {s t : State} (h : HoldingsKept s (holdoutsLapsed g t)) :
    HoldingsKept s (lapseGroup g t) :=
  kept_notifyEach (kept_notifyEach h)

theorem ageGroup_cases {g : GroupId} {s t : State} (kept : HoldingsKept s t)
    (lapsed : HoldingsKept (holdoutsLapsed g s) (holdoutsLapsed g t)) :
    HoldingsKept s (ageGroup g t) ∨ HoldingsKept (holdoutsLapsed g s) (ageGroup g t) := by
  unfold ageGroup
  simp only
  split
  · exact .inl kept
  · split
    · refine .inr (kept_lapseGroup ?_)
      rw [holdoutsLapsed_aged]
      exact kept_regroup rfl rfl lapsed
    · exact .inl (kept_regroup rfl rfl kept)

/-- An ack step keeps all holdings, or the holdouts of its group lapse. -/
theorem ackStep_cases (g : GroupId) (s : State) :
    ∃ t, execAckStep g s = .next t ∧ (HoldingsKept s t ∨ HoldingsKept (holdoutsLapsed g s) t) := by
  refine ⟨_, rfl, ?_⟩
  split
  · exact .inl (.refl s)
  · simp only
    split
    · exact ageGroup_cases (kept_of_same (.refl s) rfl rfl rfl rfl)
        (kept_of_same (.refl (holdoutsLapsed g s)) rfl rfl rfl rfl)
    · exact .inl (kept_of_same (.refl s) rfl rfl rfl rfl)

/-! ### Every command -/

/-- The commands that bring about a device reset (R155, R156). -/
abbrev Resets (c : Instr) : Prop := c = .resetAssert ∨ c = .powerUp ∨ ∃ q tag, c = .resetDevice q tag

/-- What a command can do to the holdings of the ports. -/
inductive Dealing (c : Instr) (s t : State) : Prop
  | kept (kept : HoldingsKept s t)
  | own (p : Port) (caller : portOf c = some p) (run : Accesses p s t)
  | lapse (g : GroupId) (step : c = .ackStep g) (kept : HoldingsKept (holdoutsLapsed g s) t)
  | reset (resets : Resets c) (kept : HoldingsKept (deviceReset s) t)

theorem dealing_of_kept {c : Instr} {s : State} {r : Result} (h : ∃ t, r = .next t ∧ HoldingsKept s t) :
    ∃ t, r = .next t ∧ Dealing c s t := by
  obtain ⟨t, ht, kept⟩ := h
  exact ⟨t, ht, .kept kept⟩

theorem dealing_ackStep (g : GroupId) (s : State) : ∃ t, execAckStep g s = .next t ∧ Dealing (.ackStep g) s t := by
  obtain ⟨t, ht, kept | lapsed⟩ := ackStep_cases g s
  · exact ⟨t, ht, .kept kept⟩
  · exact ⟨t, ht, .lapse g rfl lapsed⟩

theorem accesses_badframe (p : Port) (mosi : List Byte) (s : State) :
    ∃ t, execBadframe p mosi s = .next t ∧ Accesses p s t := by
  have ended := accesses_endTransaction p s
  refine ⟨_, rfl, ?_⟩
  split
  · exact ended
  · split
    · exact ended
    · split
      · exact ended.tail (.inr (.respond _))
      · exact .refl

/-- RESET_DEVICE is refused, or the device reset finds the caller's transaction over (R155). -/
theorem dealing_resetDevice (p : Port) (tag : Byte) (s : State) :
    ∃ t, execResetDevice p tag s = .next t ∧ Dealing (.resetDevice p tag) s t := by
  refine ⟨_, rfl, ?_⟩
  have ended := accesses_endTransaction p s
  rcases takeCommand_cases p .resetDevice tag 0 (claimed p [] fun s => ⟨deviceReset s, .ok, [], false⟩) s with
    eq | ⟨cause, eq⟩ | ⟨_, _, _, eq⟩ <;> rw [eq]
  · exact .own p rfl ended
  · exact .own p rfl (ended.tail (.inr (.respond _)))
  · rcases claimed_cases p [] (fun s => ⟨deviceReset s, .ok, [], false⟩) (s.endTransaction p) with
      ⟨_, refused⟩ | ⟨_, _, refused⟩ | ⟨_, _, accepted⟩
    · rw [refused]
      exact .own p rfl (ended.tail (.inr (.respond _)))
    · rw [refused]
      exact .own p rfl (ended.tail (.inr (.respond _)))
    · rw [accepted]
      refine .reset (.inr (.inr ⟨p, tag, rfl⟩)) ⟨fun q => ⟨?_, fun _ => rfl⟩, fun _ _ => .inl, nofun⟩
      rw [if_neg (by simp), portUnit_deviceReset, portUnit_deviceReset]
      exact ⟨rfl, rfl, rfl⟩

theorem exec_dealing (c : Instr) (s : State) : ∃ t, exec c s = .next t ∧ Dealing c s t := by
  match c with
  | .nop p _ | .status p _ => exact ⟨_, rfl, .own p rfl (accesses_answering fun _ => rfl)⟩
  | .join p _ attention => exact ⟨_, rfl, .own p rfl (accesses_takeCommand fun t _ => accesses_joinReply p attention t)⟩
  | .leave p _ => exact ⟨_, rfl, .own p rfl (accesses_takeCommand fun t _ => accesses_leaveReply p t)⟩
  | .fetch p _ n => exact ⟨_, rfl, .own p rfl (accesses_keeping fun t => kept_fetchReply p t n)⟩
  | .claimConfig p _ =>
    exact ⟨_, rfl, .own p rfl (accesses_takeCommand fun _ able => accesses_claimReply (able.resolve_right nofun))⟩
  | .releaseConfig p _ => exact ⟨_, rfl, .own p rfl (accesses_keeping fun t => kept_releaseClaimReply p t)⟩
  | .start p _ => exact ⟨_, rfl, .own p rfl (accesses_keeping fun t => kept_claimed (kept_startBody t))⟩
  | .stop p _ => exact ⟨_, rfl, .own p rfl (accesses_keeping kept_stopReply)⟩
  | .resume p _ => exact ⟨_, rfl, .own p rfl (accesses_keeping kept_resumeReply)⟩
  | .resetDevice p tag => exact dealing_resetDevice p tag s
  | .defineEntry p _ index group width writers limits words =>
    exact ⟨_, rfl, .own p rfl (accesses_keeping fun t =>
      kept_claimed (kept_defineEntryBody group index t width writers limits words))⟩
  | .defineFan p _ index group writers targets =>
    exact ⟨_, rfl, .own p rfl (accesses_keeping fun t =>
      kept_claimed (kept_defineFanBody group index t writers targets))⟩
  | .deleteEntry p _ index =>
    exact ⟨_, rfl, .own p rfl (accesses_keeping fun t => kept_claimed (kept_deleteEntryBody index t))⟩
  | .defineGroup p _ group staleLimit ackDeadline patienceLimit =>
    exact ⟨_, rfl, .own p rfl (accesses_keeping fun t =>
      kept_claimed (kept_defineGroupBody group t staleLimit ackDeadline patienceLimit))⟩
  | .defineBundle p _ bundle members =>
    exact ⟨_, rfl, .own p rfl (accesses_keeping fun t => kept_claimed (kept_defineBundleBody t bundle members))⟩
  | .setFrame p _ source period =>
    exact ⟨_, rfl, .own p rfl (accesses_keeping fun t => kept_claimed (kept_setFrameBody t source period))⟩
  | .read p _ index => exact ⟨_, rfl, .own p rfl (accesses_answering (state_readReply index))⟩
  | .readSet p _ indices => exact ⟨_, rfl, .own p rfl (accesses_answering (state_readSetReply indices))⟩
  | .groupStatus p _ group => exact ⟨_, rfl, .own p rfl (accesses_answering (state_groupStatusReply p group))⟩
  | .lease p _ group => exact ⟨_, rfl, .own p rfl (accesses_keeping (kept_leaseReply p group))⟩
  | .release p _ group => exact ⟨_, rfl, .own p rfl (accesses_keeping (kept_releaseReply p group))⟩
  | .stage p _ index words => exact ⟨_, rfl, .own p rfl (accesses_keeping fun t => kept_stageReply p index t words)⟩
  | .unstage p _ index => exact ⟨_, rfl, .own p rfl (accesses_keeping (kept_unstageReply p index))⟩
  | .seal p _ group delay marked =>
    exact ⟨_, rfl, .own p rfl (accesses_keeping fun t => kept_sealReply p group t delay marked)⟩
  | .unseal p _ group => exact ⟨_, rfl, .own p rfl (accesses_keeping (kept_unsealReply p group))⟩
  | .readStaged p _ index => exact ⟨_, rfl, .own p rfl (accesses_keeping (kept_readStagedReply p index))⟩
  | .subscribe p _ _ _ =>
    exact ⟨_, rfl, .own p rfl (accesses_takeCommand fun _ able => accesses_subscribeReply (able.resolve_right nofun))⟩
  | .ack p _ group epoch => exact ⟨_, rfl, .own p rfl (accesses_keeping fun t => kept_ackReply p group t epoch)⟩
  | .badframe p mosi =>
    obtain ⟨t, ht, run⟩ := accesses_badframe p mosi s
    exact ⟨t, ht, .own p rfl run⟩
  | .pureRead p => exact ⟨_, rfl, .own p rfl (accesses_endTransaction p s)⟩
  | .fsyncEdge time => exact dealing_of_kept (kept_fsyncEdge s time)
  | .internalTimer => exact dealing_of_kept (kept_internalTimer s)
  | .windowExpiry => exact dealing_of_kept (kept_windowExpiry s)
  | .frameLoss => exact dealing_of_kept (kept_frameLoss s)
  | .boundaryTaken => exact dealing_of_kept (kept_boundaryTaken s)
  | .enterFirst => exact dealing_of_kept (kept_enterFirst s)
  | .enterStopped => exact dealing_of_kept (kept_enterStopped s)
  | .opening => exact dealing_of_kept (kept_opening s)
  | .groupEvaluation g => exact dealing_of_kept (kept_groupEvaluation s g)
  | .bundleEvaluation b => exact dealing_of_kept (kept_bundleEvaluation s b)
  | .closing => exact dealing_of_kept (kept_closing s)
  | .commitPulseEnd => exact dealing_of_kept (kept_commitPulseEnd s)
  | .patienceStep g => exact dealing_of_kept (kept_patienceStep s g)
  | .ackStep g => exact dealing_ackStep g s
  | .noticeArrival p n => exact ⟨_, rfl, .kept (kept_notify (.refl s))⟩
  | .resetAssert => exact ⟨_, rfl, .reset (.inl rfl) (kept_of_same (.refl _) rfl rfl rfl rfl)⟩
  | .resetRelease => exact ⟨_, rfl, .kept (kept_of_same (.refl s) rfl rfl rfl rfl)⟩
  | .powerUp => exact ⟨_, rfl, .reset (.inr (.inl rfl)) (.refl _)⟩
  | .csFalls p => exact dealing_of_kept (kept_csFalls s p)

/-- The commands that wait are nothing that a port holds. -/
theorem Dealing.of_pending {c : Instr} {s t : State} {rest : List Instr} (h : Dealing c { s with pending := rest } t) :
    Dealing c s t := by
  have waits : HoldingsKept s { s with pending := rest } := kept_of_same (.refl s) rfl rfl rfl rfl
  cases h with
  | kept kept => exact .kept (waits.trans kept)
  | own p caller run => exact .own p caller (.head (.inl waits) run)
  | lapse g step kept =>
    have lapsed : HoldingsKept (holdoutsLapsed g s) (holdoutsLapsed g { s with pending := rest }) :=
      kept_of_same (.refl _) rfl rfl rfl rfl
    exact .lapse g step (lapsed.trans kept)
  | reset resets kept =>
    have reset : HoldingsKept (deviceReset s) (deviceReset { s with pending := rest }) :=
      kept_of_same (.refl _) rfl rfl rfl rfl
    exact .reset resets (reset.trans kept)

/-- Every step with a command waiting is a dealing. -/
theorem step_dealing {s t : State} {c : Instr} {rest : List Instr} (next : s.pending = c :: rest)
    (h : step s = .next t) : Dealing c s t := by
  obtain ⟨u, hu, dealing⟩ := exec_dealing c { s with pending := rest }
  simp only [step, next] at h
  rw [hu] at h
  cases h
  exact dealing.of_pending

end Sys2Proof.Proofs
end

section
namespace Sys2Proof.Proofs

open Sys2Proof Sys2Proof.Machine

/-! ## Obligations and the claim (R107, R143, R144, R166) -/

/-- A law is kept by every step if what keeps all holdings keeps it, if each change of a port's own and each lapse does, and
if it holds after a device reset. -/
theorem holdings_law {P : State → Prop} (kept : ∀ s t, P s → HoldingsKept s t → P t)
    (access : ∀ p s t, P s → Access p s t → P t) (lapse : ∀ g s, P s → P (holdoutsLapsed g s))
    (reset : ∀ s, P (deviceReset s)) (s t : State) (h : P s) (hstep : step s = .next t) : P t := by
  cases next : s.pending with
  | nil => rw [step_idle next hstep]; exact h
  | cons c rest =>
    have dealing := step_dealing next hstep
    clear hstep
    cases dealing with
    | kept all => exact kept _ _ h all
    | own p _ run =>
      induction run with
      | refl => exact h
      | tail _ last ih => exact last.elim (kept _ _ ih) (access p _ _ ih)
    | lapse g _ all => exact kept _ _ (lapse g _ h) all
    | reset _ all => exact kept _ _ (reset _) all

/-! ### Obligations -/

theorem obligationsHeld_of_kept (s t : State) (h : ObligationsHeld s) (kept : HoldingsKept s t) : ObligationsHeld t := by
  intro g p
  obtain ⟨able, online⟩ := h g p
  rw [(kept.alone p).subscriptions g, (kept.alone p).isOnline]
  exact ⟨fun owes => (kept.owing g p owes).elim able id, online⟩

/-- The port of a change is the only one whose obligations have to be looked at. -/
theorem obligationsHeld_of_access (p : Port) (s t : State) (h : ObligationsHeld s) (access : Access p s t) :
    ObligationsHeld t := by
  cases access with
  | respond r => exact fun g q => by simpa using h g q
  | join sessionNumber attention =>
    intro g q
    obtain ⟨able, online⟩ := h g q
    refine ⟨able, fun subscribed => ?_⟩
    rw [State.isOnline, portUnit_setPort]
    split
    · rfl
    · exact online subscribed
  | subscribe g new owes newOnline newAble =>
    intro k q
    rw [group_setGroup]
    split
    · next here =>
      subst here
      obtain ⟨able, online⟩ := h g q
      simp only [PerPort.get_set]
      split
      · next self => exact self ▸ ⟨newAble, newOnline⟩
      · exact ⟨able, online⟩
    · exact h k q
  | claim => exact h
  | leave unsubscribed unclaimed =>
    intro g q
    obtain ⟨able, online⟩ := h g q
    refine ⟨able, fun subscribed => ?_⟩
    rw [State.isOnline, closeSession, portUnit_setPort]
    split
    · next self => exact absurd (self ▸ unsubscribed g) subscribed
    · exact online subscribed

/-- A port whose subscription lapses was subscribed, so it is ONLINE. -/
theorem obligationsHeld_of_lapse (g : GroupId) (s : State) (h : ObligationsHeld s) :
    ObligationsHeld (holdoutsLapsed g s) := by
  intro k q
  rw [holdoutsLapsed, group_setGroup]
  split
  · next here =>
    subst here
    obtain ⟨able, online⟩ := h g q
    refine ⟨fun owes => by simp at owes, fun subscribed => online ?_⟩
    simp only [lapsedSubscriptions, PerPort.get_ofFun] at subscribed
    split at subscribed
    · next owes => rcases able owes with mode | mode <;> simp [mode]
    · exact subscribed
  · exact h k q

theorem obligationsHeld_deviceReset (s : State) : ObligationsHeld (deviceReset s) := by
  intro g p
  rw [group_deviceReset]
  simp [Group.reset]

/-! ### The claim -/

theorem claimLegal_of_kept (s t : State) (h : ClaimLegal s) (kept : HoldingsKept s t) : ClaimLegal t := by
  intro p held
  obtain ⟨held, config⟩ := kept.claim p held
  rw [(kept.alone p).isOnline]
  exact (h p held).imp_left config

theorem claimLegal_of_access (p : Port) (s t : State) (h : ClaimLegal s) (access : Access p s t) : ClaimLegal t := by
  intro q held
  cases access with
  | respond r => simpa using h q held
  | join sessionNumber attention =>
    refine (h q held).imp_right fun online => ?_
    rw [State.isOnline, portUnit_setPort]
    split
    · rfl
    · exact online
  | subscribe => exact h q held
  | claim config online =>
    obtain rfl : p = q := Option.some.inj held
    exact ⟨config, online⟩
  | leave unsubscribed unclaimed =>
    refine (h q held).imp_right fun online => ?_
    rw [State.isOnline, closeSession, portUnit_setPort, if_neg fun self : p = q => unclaimed (self ▸ held)]
    exact online

/-- Settles O53: each of the two laws is kept by every change of the ports' holdings. -/
theorem stepKeepsObligationsAndClaim : Obligations.StepKeepsObligationsAndClaim :=
  ⟨holdings_law obligationsHeld_of_kept obligationsHeld_of_access obligationsHeld_of_lapse obligationsHeld_deviceReset,
    holdings_law claimLegal_of_kept claimLegal_of_access (fun _ _ h => h) fun _ => nofun⟩

/-! ## Ports left alone by the commands of others (R102, R158, R164) -/

/-- What a step leaves of a port that it is no transaction on: all, but for a lapse and for a device reset. -/
theorem step_leftAlone {s t : State} {c : Instr} {rest : List Instr} {p : Port} (next : s.pending = c :: rest)
    (hstep : step s = .next t) (other : portOf c ≠ some p) :
    LeftAlone p s t ∨ (∃ g, c = .ackStep g ∧ LeftAlone p (holdoutsLapsed g s) t)
      ∨ (Resets c ∧ LeftAlone p (deviceReset s) t) := by
  cases step_dealing next hstep with
  | kept kept => exact .inl (kept.alone p)
  | own q caller run => exact .inl (run.leftAlone fun self => other (self ▸ caller))
  | lapse g step kept => exact .inr (.inl ⟨g, step, kept.alone p⟩)
  | reset resets kept => exact .inr (.inr ⟨resets, kept.alone p⟩)

/-- Settles O60: a lapse touches subscriptions only, and a device reset sets the reset response. -/
theorem portsOwnTheirBuffersAndSubscriptions : Obligations.PortsOwnTheirBuffersAndSubscriptions := by
  refine ⟨fun s t c rest p next step other => ?_, fun s t c rest p next step other noCommand noAssert noPowerUp => ?_⟩
  · rcases step_leftAlone next step other with alone | ⟨g, -, alone⟩ | ⟨resets, alone⟩
    · exact .inl alone.unit.response
    · exact .inl alone.unit.response
    · refine .inr ⟨?_, resets⟩
      rw [alone.unit.response, portUnit_deviceReset]
      rfl
  · rcases step_leftAlone next step other with alone | ⟨g, isStep, alone⟩ | ⟨resets, -⟩
    · exact ⟨alone.isOnline, alone.unit.sessionNumber, fun g => .inl (alone.subscriptions g)⟩
    · refine ⟨alone.isOnline, alone.unit.sessionNumber, fun k => ?_⟩
      rw [alone.subscriptions k, holdoutsLapsed, group_setGroup]
      split
      · next here =>
        subst here
        simp only [lapsedSubscriptions, PerPort.get_ofFun]
        split
        · next owes => exact .inr ⟨rfl, owes, isStep⟩
        · exact .inl rfl
      · exact .inl rfl
    · rcases resets with assert | powerUp | ⟨q, tag, command⟩
      · exact absurd assert noAssert
      · exact absurd powerUp noPowerUp
      · exact absurd command (noCommand q tag)

end Sys2Proof.Proofs
end

section
namespace Sys2Proof.Proofs

open Sys2Proof Sys2Proof.Machine

/-! ## The arrival of a notice (R170, R171, R174) -/

theorem session_eq_online {s : State} {p : Port} : (s.portUnit p).session = .online ↔ s.isOnline p = true := by
  simp [State.isOnline]

theorem session_of_offline {s : State} {p : Port} (h : s.isOnline p = false) : (s.portUnit p).session = .offline := by
  cases session : (s.portUnit p).session with
  | offline => rfl
  | online => rw [session_eq_online.mp session] at h; cases h

theorem enqueue_of_length_le {queue : List QueuedNotice} (n : Notice) (frame : Half) (room : queue.length ≤ 30) :
    enqueue queue n frame = queue ++ [.notice n frame] := by
  rcases enqueue_cases queue n frame with ⟨_, h⟩ | ⟨_, _⟩ | ⟨_, _⟩
  · exact h
  all_goals omega

theorem enqueue_of_length_eq {queue : List QueuedNotice} (n : Notice) (frame : Half) (last : queue.length = 31) :
    enqueue queue n frame = queue ++ [.overflow 1#8 frame] := by
  rcases enqueue_cases queue n frame with ⟨_, _⟩ | ⟨_, h⟩ | ⟨_, _⟩
  · omega
  · exact h
  · omega

theorem enqueue_of_le_length {queue : List QueuedNotice} (n : Notice) (frame : Half) (full : 32 ≤ queue.length) :
    enqueue queue n frame = raiseTail queue := by
  rcases enqueue_cases queue n frame with ⟨_, _⟩ | ⟨_, _⟩ | ⟨_, h⟩
  · omega
  · omega
  · exact h

/-- The OVERFLOW at the tail counts one more, whatever stands before it (R170). -/
theorem raiseTail_append_overflow (older : List QueuedNotice) (count : Byte) (frame : Half) :
    raiseTail (older ++ [.overflow count frame]) = older ++ [.overflow (raiseByte count) frame] := by
  induction older with
  | nil => rfl
  | cons x rest ih =>
    obtain ⟨y, tail, split⟩ : ∃ y tail, rest ++ [.overflow count frame] = y :: tail :=
      List.exists_cons_of_ne_nil (by simp)
    rw [List.cons_append, split, raiseTail, ← split, ih, List.cons_append]

theorem attn_eq_true {s : State} {p : Port} :
    (s.portUnit p).attn = true ↔ s.isOnline p = true ∧ (s.portUnit p).attention = true ∧ (s.portUnit p).queue ≠ [] := by
  simp [PortUnit.attn, State.isOnline, and_assoc]

theorem exec_noticeArrival (p : Port) (n : Notice) (s : State) : exec (.noticeArrival p n) s = .next (s.notify p n) := rfl

/-- Settles O13: the arrival is `State.notify`, and the queue after it is that of `enqueue` by its depth. -/
theorem noticeArrivalByQueueDepth : Obligations.NoticeArrivalByQueueDepth := by
  refine ⟨fun queue n frame bounded => enqueue_bounded bounded n frame, fun p n s => ?_⟩
  rw [exec_noticeArrival]
  refine ⟨fun offline => ?_, fun online room => ?_, fun online last => ?_, fun older count frame online queue length => ?_,
    rfl, fun rest of => ⟨rfl, rfl⟩, attn_eq_true⟩
  · rw [notify_offline n (session_of_offline offline)]
  · rw [notify_online n (session_eq_online.mpr online), enqueue_of_length_le n _ room]
  · rw [notify_online n (session_eq_online.mpr online), enqueue_of_length_eq n _ last]
  · have full : 32 ≤ (older ++ [QueuedNotice.overflow count frame]).length := by simp [length]
    rw [notify_online n (session_eq_online.mpr online), queue, enqueue_of_le_length n _ full, raiseTail_append_overflow,
      raiseByte_eq]

end Sys2Proof.Proofs
end

section
namespace Sys2Proof.Proofs

open Sys2Proof Sys2Proof.Machine

/-! ## SET_FRAME (R123, R124) -/

/-! ### The sync window and the period (R124) -/

theorem earlyBound_eq {period : Word} {early : Nat} (reached : 7 * 25 * period.toNat ≤ 8 * early)
    (least : 8 * early < 7 * 25 * period.toNat + 8) : earlyBound period = early := by
  simp only [earlyBound, Config.clkPerMicrosecond]
  omega

theorem lateBound_eq {period : Word} {late : Nat} (within : 8 * late ≤ 9 * 25 * period.toNat)
    (greatest : 9 * 25 * period.toNat < 8 * late + 8) : lateBound period = late := by
  simp only [lateBound, Config.clkPerMicrosecond]
  omega

/-- An edge comes before the early bound, by the exact 7P/8 µs. -/
theorem lt_add_earlyBound {time last : Nat} {period : Word} :
    time < last + earlyBound period ↔ 8 * time < 8 * last + 7 * 25 * period.toNat := by
  simp only [earlyBound, Config.clkPerMicrosecond]
  omega

/-- An edge comes no later than the late bound, by the exact 9P/8 µs. -/
theorem le_add_lateBound {time last : Nat} {period : Word} :
    time ≤ last + lateBound period ↔ 8 * time ≤ 8 * last + 9 * 25 * period.toNat := by
  simp only [lateBound, Config.clkPerMicrosecond]
  omega

/-! ### The source -/

theorem sourceOf_eq_none {b : Byte} (h : 2 ≤ b.toNat) : sourceOf b = none := by
  have internal : b ≠ 0x00#8 := by rintro rfl; contradiction
  have external : b ≠ 0x01#8 := by rintro rfl; contradiction
  simp [sourceOf, internal, external]

/-- A source byte in range names the source whose code it is (10.4). -/
theorem sourceOf_eq_some {b : Byte} (h : b.toNat ≤ 1) :
    ∃ source, sourceOf b = some source ∧ sourceCode source = b ∧ source = if b = 0#8 then .internal else .external := by
  have named : b = 0x00#8 ∨ b = 0x01#8 := by bv_omega
  rcases named with rfl | rfl
  · exact ⟨.internal, rfl, rfl, rfl⟩
  · exact ⟨.external, rfl, rfl, rfl⟩

/-! ### The checks in order -/

theorem setFrameBody_argument {source : Byte} {period : Word}
    (bad : 2 ≤ source.toNat ∨ period.toNat < 100 ∨ 1000000 < period.toNat) (s : State) :
    setFrameBody source period s = answer s .argument [] := by
  unfold setFrameBody
  split
  · rfl
  · next src named =>
    rw [if_pos]
    refine bad.resolve_left fun range => ?_
    rw [sourceOf_eq_none range] at named
    cases named

theorem setFrameBody_ok {source : Byte} {period : Word} (known : source.toNat ≤ 1) (low : 100 ≤ period.toNat)
    (high : period.toNat ≤ 1000000) (s : State) :
    setFrameBody source period s =
      answer
        { s with
          timing := { s.timing with source := if source = 0#8 then .internal else .external, period := period } } .ok
        ([source] ++ wordBytes period ++ wordBytes (BitVec.ofNat 32 (earlyBound period))
          ++ wordBytes (BitVec.ofNat 32 (lateBound period))) := by
  obtain ⟨src, named, code, meaning⟩ := sourceOf_eq_some known
  have range : ¬ (period.toNat < Config.minPeriod ∨ Config.maxPeriod < period.toNat) := by
    simp only [Config.minPeriod, Config.maxPeriod]
    omega
  simp [setFrameBody, named, if_neg range, code, ← meaning]

/-- Settles O46: the mode and the claim by `claimed` (R145), then the answers of `setFrameBody`. -/
theorem setFrameReplacesSourceAndPeriod : Obligations.SetFrameReplacesSourceAndPeriod := by
  intro p tag source period s taken
  have accepted : Command.setFrame.accepts 5 = true := rfl
  refine ⟨fun mode => ?_, fun config claim => ?_, fun config claim bad => ?_,
    fun early late config claim known low high reached least within greatest => ?_⟩
  · exact takeCommand_answered taken accepted (by simp [claimed, mode])
  · exact takeCommand_answered taken accepted (by simp [claimed, config, claim])
  · exact takeCommand_claimed_answered (refusal := fun _ => []) taken accepted config claim (setFrameBody_argument bad _)
  · rw [← earlyBound_eq reached least, ← lateBound_eq within greatest]
    exact takeCommand_claimed_answered (refusal := fun _ => []) taken accepted config claim
      (setFrameBody_ok known low high _)

end Sys2Proof.Proofs
end

section
namespace Sys2Proof.Proofs

open Sys2Proof Sys2Proof.Machine

/-! ## Boundaries produced by frame timing (R125 to R135) -/

theorem produceBoundary_none (time : Nat) (frame : Half) (s : State) :
    produceBoundary time frame none s =
      { s with
        timing := { s.timing with state := .tracking, lastBoundary := some time, frameNumber := frame }
        now := max s.now time
        toMode := s.toMode ++ [.boundary frame] } := rfl

/-- A boundary at a time that is not before the present one. -/
theorem produceBoundary_none_of_le {time : Nat} (frame : Half) {s : State} (later : s.now ≤ time) :
    produceBoundary time frame none s =
      { s with
        timing := { s.timing with state := .tracking, lastBoundary := some time, frameNumber := frame }
        now := time
        toMode := s.toMode ++ [.boundary frame] } := by
  rw [produceBoundary_none, max_eq_right later]

/-- A boundary produced in TRACKING leaves the timing state as it is. -/
theorem produceBoundary_none_of_tracking (time : Nat) (frame : Half) {s : State} (state : s.timing.state = .tracking) :
    produceBoundary time frame none s =
      { s with
        timing := { s.timing with lastBoundary := some time, frameNumber := frame }
        now := max s.now time
        toMode := s.toMode ++ [.boundary frame] } := by
  rw [produceBoundary_none, ← state]

theorem raiseHalf_eq (c : Half) : raiseHalf c = if c = 65535#16 then 65535#16 else c + 1#16 := by
  unfold raiseHalf
  split
  · next full => exact full
  · rfl

/-! ### Edges of FSYNC by the timing state -/

section
variable {s : State} (time : Nat)

theorem takeEdge_first_external (state : s.timing.state = .first) (source : s.timing.source = .external) :
    takeEdge time s = produceBoundary time 0#16 none s := by
  simp [takeEdge, state, source]

theorem takeEdge_tracking_external {last : Nat} (state : s.timing.state = .tracking) (source : s.timing.source = .external)
    (boundary : s.timing.lastBoundary = some last) : takeEdge time s = judgeEdge time last s := by
  simp [takeEdge, state, source, boundary]

theorem takeEdge_armed (state : s.timing.state = .lost) (armed : s.timing.resumeArmed = true) :
    takeEdge time s =
      produceBoundary time (nextFrame s.timing.frameNumber) none
        { s with timing := { s.timing with flywheel := 0#8, resumeArmed := false } } := by
  simp [takeEdge, state, armed]

/-- The edges that frame timing ignores (R122, R128, R134). -/
theorem takeEdge_ignored
    (h : s.timing.state = .stopped
      ∨ ((s.timing.state = .first ∨ s.timing.state = .tracking) ∧ s.timing.source = .internal)
      ∨ (s.timing.state = .lost ∧ s.timing.resumeArmed = false)) :
    takeEdge time s = { s with now := time } := by
  rcases h with state | ⟨state | state, source⟩ | ⟨state, unarmed⟩
  · simp [takeEdge, state]
  · simp [takeEdge, state, source]
  · simp [takeEdge, state, source]
  · simp [takeEdge, state, unarmed]

end

/-- The judgement of an edge in TRACKING, by the exact bounds of the window (R124, R129). -/
theorem judgeEdge_eq {time : Nat} (last : Nat) {s : State} (later : s.now ≤ time) :
    judgeEdge time last s =
      if 8 * time < 8 * last + 7 * 25 * s.timing.period.toNat then
        { s with
          timing :=
            { s.timing with
              earlySync := if s.timing.earlySync = 65535#16 then 65535#16 else s.timing.earlySync + 1#16 }
          now := time }
      else if 8 * time ≤ 8 * last + 9 * 25 * s.timing.period.toNat then
        { s with
          timing :=
            { s.timing with
              flywheel := 0#8, state := .tracking, lastBoundary := some time
              frameNumber := s.timing.frameNumber + 1#16 }
          now := time
          toMode := s.toMode ++ [.boundary (s.timing.frameNumber + 1#16)] }
      else s := by
  simp only [judgeEdge, lt_add_earlyBound, le_add_lateBound, raiseHalf_eq]
  rw [produceBoundary_none_of_le _ (by exact later)]
  rfl

theorem exec_fsyncEdge_in_reset (time : Nat) {s : State} (low : s.resetLow = true) :
    exec (.fsyncEdge time) s = .next { s with now := max s.now time } :=
  congrArg _ (if_pos low)

theorem exec_fsyncEdge (time : Nat) {s : State} (high : s.resetLow = false) :
    exec (.fsyncEdge time) s = .next (takeEdge (max s.now time) s) :=
  congrArg _ (if_neg (by simp [high]))

/-- Settles O48: an edge is read at the present time or later, and `takeEdge` judges it by the timing state. -/
theorem fsyncEdgeJudgedByState : Obligations.FsyncEdgeJudgedByState := by
  intro time s
  have later : s.now ≤ max s.now time := le_max_left _ _
  refine ⟨fun low => exec_fsyncEdge_in_reset time low, fun high state => ?_, fun high state source => ?_,
    fun high state source => ?_, fun high state source => ?_, fun last high state source boundary => ?_,
    fun high state unarmed => ?_, fun high state armed => ?_⟩ <;> rw [exec_fsyncEdge time high]
  · rw [takeEdge_ignored _ (.inl state)]
  · rw [takeEdge_ignored _ (.inr (.inl ⟨.inl state, source⟩))]
  · rw [takeEdge_first_external _ state source, produceBoundary_none_of_le _ later]
  · rw [takeEdge_ignored _ (.inr (.inl ⟨.inr state, source⟩))]
  · rw [takeEdge_tracking_external _ state source boundary, judgeEdge_eq last later]
  · rw [takeEdge_ignored _ (.inr (.inr ⟨state, unarmed⟩))]
  · rw [takeEdge_armed _ state armed, produceBoundary_none_of_le _ (by exact later)]
    rfl

/-! ### Notices and updates that they do not meet -/

/-- Notices commute with an update that neither reads nor writes the port units, and that keeps the frame number they
carry. -/
theorem notifyEach_comm {f : State → State} (beside : ∀ s x, f { s with ports := x } = { f s with ports := x })
    (timing : ∀ s, (f s).timing = s.timing) (s : State) (ports : List Port) (n : Port → Notice) :
    f (s.notifyEach ports n) = (f s).notifyEach ports n := by
  have same : ∀ s : State, (f s).ports = s.ports := fun s => (congrArg State.ports (beside s s.ports) :)
  have unit : ∀ (s : State) p, (f s).portUnit p = s.portUnit p := fun s p => congrArg (·.get p) (same s)
  have one : ∀ (s : State) p n, f (s.notify p n) = (f s).notify p n := fun s p n => by
    cases online : (s.portUnit p).session with
    | offline => rw [notify_offline n online, notify_offline n ((unit s p).symm ▸ online)]
    | online =>
      rw [notify_online n online, notify_online n ((unit s p).symm ▸ online), unit, timing, State.setPort, State.setPort,
        beside, same]
  unfold State.notifyEach
  induction ports generalizing s with
  | nil => rfl
  | cons p rest ih => rw [List.foldl_cons, ih, one, List.foldl_cons]

theorem tellMode_notifyEach (r : TimingReport) (s : State) (ports : List Port) (n : Port → Notice) :
    tellMode r (s.notifyEach ports n) = (tellMode r s).notifyEach ports n :=
  notifyEach_comm (f := tellMode r) (fun _ _ => rfl) (fun _ => rfl) s ports n

theorem handOn_notifyEach (kind : BoundaryKind) (frame : Half) (s : State) (ports : List Port) (n : Port → Notice) :
    handOn kind frame (s.notifyEach ports n) = (handOn kind frame s).notifyEach ports n :=
  notifyEach_comm (f := handOn kind frame) (fun _ _ => rfl) (fun _ => rfl) s ports n

/-- A substitute boundary: FRAME goes to every ONLINE port with the new frame number (R131). -/
theorem produceBoundary_some (time : Nat) (frame : Half) (count : Byte) (s : State) :
    produceBoundary time frame (some count) s =
      (produceBoundary time frame none s).notifyEach [.p0, .p1, .p2, .p3] (fun _ => .frameSubstitute count) :=
  tellMode_notifyEach _ _ _ _

/-! ### The internal timer (R127, R128) -/

theorem exec_internalTimer_first {s : State} {time : Nat} (timer : s.timing.timer = some time)
    (source : s.timing.source = .internal) (state : s.timing.state = .first) :
    exec .internalTimer s = .next (produceBoundary time 0#16 none
      { s with timing := { s.timing with timer := some (time + periodClocks s.timing.period) } }) := by
  change execInternalTimer s = _
  simp [execInternalTimer, timer, source, state]

theorem exec_internalTimer_tracking {s : State} {time : Nat} (timer : s.timing.timer = some time)
    (source : s.timing.source = .internal) (state : s.timing.state = .tracking) :
    exec .internalTimer s = .next (produceBoundary time (nextFrame s.timing.frameNumber) none
      { s with timing := { s.timing with timer := some (time + periodClocks s.timing.period) } }) := by
  change execInternalTimer s = _
  simp [execInternalTimer, timer, source, state]

/-- No timer runs to its end but with source INTERNAL in FIRST or TRACKING (log entry 2). -/
theorem exec_internalTimer_idle {s : State}
    (h : s.timing.timer = none ∨ s.timing.source = .external ∨ s.timing.state = .stopped ∨ s.timing.state = .lost) :
    exec .internalTimer s = .next s := by
  change execInternalTimer s = _
  rcases h with timer | source | state | state
  · simp [execInternalTimer, timer]
  · simp [execInternalTimer, source]
  · simp [execInternalTimer, state]
  · simp [execInternalTimer, state]

/-! ### The expiry of the sync window (R130, R131, R133) -/

theorem exec_windowExpiry_tracking {s : State} {last : Nat} (state : s.timing.state = .tracking)
    (source : s.timing.source = .external) (boundary : s.timing.lastBoundary = some last) :
    exec .windowExpiry s = .next (expireWindow last s) := by
  change execWindowExpiry s = _
  simp [execWindowExpiry, state, source, boundary]

/-- No window is open but in TRACKING with source EXTERNAL (log entry 2). -/
theorem exec_windowExpiry_idle {s : State}
    (h : s.timing.state ≠ .tracking ∨ s.timing.source = .internal ∨ s.timing.lastBoundary = none) :
    exec .windowExpiry s = .next s := by
  change execWindowExpiry s = _
  rcases h with state | source | boundary
  · simp [execWindowExpiry, state]
  · simp [execWindowExpiry, source]
  · simp [execWindowExpiry, boundary]

theorem expireWindow_substitute (last : Nat) {s : State} (below : s.timing.flywheel.toNat ≤ 2) :
    expireWindow last s =
      produceBoundary (last + lateBound s.timing.period) (nextFrame s.timing.frameNumber) (some (s.timing.flywheel + 1#8))
        { s with timing := { s.timing with flywheel := s.timing.flywheel + 1#8 } } :=
  if_pos (show s.timing.flywheel.toNat < 3 by omega)

theorem expireWindow_loss (last : Nat) {s : State} (limit : s.timing.flywheel = 3#8) :
    expireWindow last s =
      tellMode .frameLoss
        { s with
          timing := { s.timing with state := .lost }, now := max s.now (last + lateBound s.timing.period) } :=
  if_neg (by rw [limit]; decide)

/-- Settles O49: the timer by the timing state, the window by the flywheel count. -/
theorem timersProduceBoundaries : Obligations.TimersProduceBoundaries := by
  refine ⟨fun s => ⟨fun time timer source runs => ?_, exec_internalTimer_idle⟩,
    fun s => ⟨fun last late state source boundary within greatest => ?_, exec_windowExpiry_idle⟩⟩
  · rcases runs with state | state
    · rw [exec_internalTimer_first timer source state, if_pos state]
      rfl
    · rw [exec_internalTimer_tracking timer source state, if_neg (by simp [state])]
      rfl
  · rw [exec_windowExpiry_tracking state source boundary, ← lateBound_eq within greatest]
    refine ⟨fun below => ?_, fun limit => ?_⟩
    · rw [expireWindow_substitute last below, produceBoundary_some,
        produceBoundary_none_of_tracking _ _ (by exact state)]
      rfl
    · rw [expireWindow_loss last limit]
      rfl

end Sys2Proof.Proofs
end

section
namespace Sys2Proof.Proofs

open Sys2Proof Sys2Proof.Machine

/-! ## Messages between mode control and frame timing (R125, R126, R133, R136) -/

/-! ### Reports taken by mode control -/

theorem exec_boundaryTaken_boundary {s : State} {frame : Half} {rest : List TimingReport}
    (next : s.toMode = .boundary frame :: rest) :
    exec .boundaryTaken s = .next (takeBoundary frame { s with toMode := rest }) := by
  change execBoundaryTaken s = _
  simp [execBoundaryTaken, next]

/-- With a frame loss next, or no report, no boundary is taken (log entry 2). -/
theorem exec_boundaryTaken_other {s : State} (h : ∀ frame rest, s.toMode ≠ .boundary frame :: rest) :
    exec .boundaryTaken s = .next s := by
  change execBoundaryTaken s = _
  unfold execBoundaryTaken
  split
  · next frame rest next => exact absurd next (h frame rest)
  · rfl

theorem exec_frameLoss_frameLoss {s : State} {rest : List TimingReport} (next : s.toMode = .frameLoss :: rest) :
    exec .frameLoss s = .next (takeFrameLoss { s with toMode := rest }) := by
  change execFrameLoss s = _
  simp [execFrameLoss, next]

/-- With a boundary next, or no report, no frame loss is taken (log entry 2). -/
theorem exec_frameLoss_other {s : State} (h : ∀ rest, s.toMode ≠ .frameLoss :: rest) : exec .frameLoss s = .next s := by
  change execFrameLoss s = _
  unfold execFrameLoss
  split
  · next rest next => exact absurd next (h rest)
  · rfl

theorem takeBoundary_unheard (frame : Half) {s : State} (unheard : .enterConfig ∈ s.toTiming) : takeBoundary frame s = s :=
  if_pos (stopUnheard_eq_true.mpr unheard)

theorem takeFrameLoss_unheard {s : State} (unheard : .enterConfig ∈ s.toTiming) : takeFrameLoss s = s :=
  if_pos (stopUnheard_eq_true.mpr unheard)

theorem takeBoundary_heard (frame : Half) {s : State} (heard : .enterConfig ∉ s.toTiming) :
    takeBoundary frame s =
      match s.mode with
      | .config => s
      | .starting => handOn .start frame (changeMode .running s)
      | .running => handOn .run frame s
      | .fault => handOn .resume frame (changeMode .running s)
      | .stopping => handOn .stop frame (enterConfig s) :=
  if_neg (mt stopUnheard_eq_true.mp heard)

theorem takeFrameLoss_heard {s : State} (heard : .enterConfig ∉ s.toTiming) :
    takeFrameLoss s =
      match s.mode with
      | .running => changeMode .fault s
      | .stopping => enterConfig s
      | .config | .starting | .fault => s :=
  if_neg (mt stopUnheard_eq_true.mp heard)

/-- A change of mode from a known mode: MODE at every ONLINE port names both (R142). -/
theorem changeMode_of_mode {new old : Mode} {s : State} (mode : s.mode = old) :
    changeMode new s =
      { s with mode := new }.notifyEach [.p0, .p1, .p2, .p3] (fun _ => .modeChange new old) := by
  rw [← mode]
  rfl

theorem handOn_changeMode {new old : Mode} {s : State} (kind : BoundaryKind) (frame : Half) (mode : s.mode = old) :
    handOn kind frame (changeMode new s) =
      { s with mode := new, boundaries := s.boundaries ++ [newWork kind frame] }.notifyEach [.p0, .p1, .p2, .p3]
        (fun _ => .modeChange new old) := by
  rw [changeMode_of_mode mode, handOn_notifyEach]
  rfl

/-- Settles O19: the report next in the list, whether frame timing has heard of an entry to CONFIG, and the mode. -/
theorem modeControlTakesReports : Obligations.ModeControlTakesReports := by
  intro s
  refine ⟨fun frame rest next => ⟨?_, exec_frameLoss_other (by simp [next])⟩,
    fun rest next => ⟨?_, exec_boundaryTaken_other (by simp [next])⟩,
    fun none_ => ⟨exec_boundaryTaken_other (by simp [none_]), exec_frameLoss_other (by simp [none_])⟩⟩
  · rw [exec_boundaryTaken_boundary next]
    refine congrArg _ ?_
    by_cases unheard : .enterConfig ∈ s.toTiming
    · rw [takeBoundary_unheard frame (by exact unheard), if_pos unheard]
    · rw [takeBoundary_heard frame (by exact unheard), if_neg unheard]
      cases s.mode with
      | config => rfl
      | starting => exact handOn_changeMode .start frame rfl
      | running => rfl
      | stopping => rfl
      | fault => exact handOn_changeMode .resume frame rfl
  · rw [exec_frameLoss_frameLoss next]
    refine congrArg _ ?_
    by_cases unheard : .enterConfig ∈ s.toTiming
    · rw [takeFrameLoss_unheard (by exact unheard), if_pos unheard]
    · rw [takeFrameLoss_heard (by exact unheard), if_neg unheard]
      cases s.mode with
      | running => exact changeMode_of_mode rfl
      | stopping => rfl
      | config => rfl
      | starting => rfl
      | fault => rfl

/-! ### Messages taken by frame timing -/

theorem exec_enterFirst_start {s : State} {takenAt : Nat} {rest : List ModeMessage}
    (next : s.toTiming = .start takenAt :: rest) :
    exec .enterFirst s = .next
      { s with
        toTiming := rest
        timing :=
          { s.timing with
            state := .first, flywheel := 0#8, earlySync := 0#16, resumeArmed := false
            timer := if s.timing.source = .internal then some (takenAt + 25 * s.timing.period.toNat) else none } } := by
  change execEnterFirst s = _
  cases source : s.timing.source <;> simp [execEnterFirst, next, source, periodClocks, Config.clkPerMicrosecond]

theorem exec_enterFirst_other {s : State} (h : ∀ takenAt rest, s.toTiming ≠ .start takenAt :: rest) :
    exec .enterFirst s = .next s := by
  change execEnterFirst s = _
  unfold execEnterFirst
  split
  · next takenAt rest next => exact absurd next (h takenAt rest)
  · rfl

theorem exec_enterStopped_enterConfig {s : State} {rest : List ModeMessage} (next : s.toTiming = .enterConfig :: rest) :
    exec .enterStopped s = .next
      { s with
        toTiming := rest
        toMode := []
        timing := { s.timing with state := .stopped, timer := none, resumeArmed := false, lastBoundary := none } } := by
  change execEnterStopped s = _
  simp [execEnterStopped, next]

theorem exec_enterStopped_other {s : State} (h : ∀ rest, s.toTiming ≠ .enterConfig :: rest) :
    exec .enterStopped s = .next s := by
  change execEnterStopped s = _
  unfold execEnterStopped
  split
  · next rest next => exact absurd next (h rest)
  · rfl

/-- Settles O47, by the message next in the list. -/
theorem frameTimingTakesMessages : Obligations.FrameTimingTakesMessages := by
  intro s
  exact ⟨fun takenAt rest next => ⟨exec_enterFirst_start next, exec_enterStopped_other (by simp [next])⟩,
    fun rest next => ⟨exec_enterStopped_enterConfig next, exec_enterFirst_other (by simp [next])⟩,
    fun none_ => ⟨exec_enterFirst_other (by simp [none_]), exec_enterStopped_other (by simp [none_])⟩⟩

end Sys2Proof.Proofs
end

section
namespace Sys2Proof.Proofs

open Sys2Proof Sys2Proof.Machine

/-! ## Transactions and the port unit (R156 to R166)

Every command of a port is one `takeCommand` (`exec_of_parts`): what the port unit answers, and the checks of R145, are then
said once for all of them. -/

/-- A command of a port runs as `takeCommand` with its own argument length, and one that needs the claim makes the checks of
R145 before its own. -/
theorem exec_of_parts {i : Instr} {p : Port} {c : Command} {tag : Byte} {args : List Byte}
    (parts : i.parts = some (p, c, tag, args)) :
    ∃ (L : Nat) (body : State → Reply), L = args.length ∧ (∀ s, exec i s = .next (takeCommand p c tag L body s))
      ∧ (needsClaim c = true → ∃ checks, ∀ s, body s = claimed p (refusalData s c) checks s) := by
  cases i <;> cases parts
  case stage => exact ⟨_, _, by simp only [List.length_cons, Laws.length_wordsBytes]; omega, fun _ => rfl, nofun⟩
  case start | resetDevice | deleteEntry | defineGroup | setFrame =>
    exact ⟨_, _, rfl, fun _ => rfl, fun _ => ⟨_, fun _ => rfl⟩⟩
  case defineEntry =>
    exact ⟨_, _, by simp only [List.length_cons, Laws.length_wordsBytes]; omega, fun _ => rfl, fun _ => ⟨_, fun _ => rfl⟩⟩
  case defineFan | defineBundle =>
    exact ⟨_, _, by simp only [List.length_cons]; omega, fun _ => rfl, fun _ => ⟨_, fun _ => rfl⟩⟩
  -- The other commands have arguments of a fixed length and need no claim.
  all_goals exact ⟨_, _, rfl, fun _ => rfl, nofun⟩

/-- The rows that are transactions on a port. -/
theorem portOf_cases {i : Instr} {p : Port} (h : portOf i = some p) :
    (∃ mosi, i = .badframe p mosi) ∨ i = .pureRead p ∨ i = .csFalls p
      ∨ ∃ c tag args, i.parts = some (p, c, tag, args) := by
  unfold portOf at h
  split at h
  · cases h; exact .inl ⟨_, rfl⟩
  · cases h; exact .inr (.inl rfl)
  · cases h; exact .inr (.inr (.inl rfl))
  · obtain ⟨⟨q, c, tag, args⟩, parts, rfl⟩ := Option.map_eq_some_iff.mp h
    exact .inr (.inr (.inr ⟨c, tag, args, parts⟩))

theorem endTransaction_eq (p : Port) (s : State) : s.endTransaction p = transactionOver p s := rfl

theorem transactionLost_iff {s : State} {p : Port} : s.transactionLost p = true ↔ ¬ Hears s p := by
  simp only [State.transactionLost, Hears, Bool.or_eq_true, beq_iff_eq, not_and_or, Bool.not_eq_false, not_not]

theorem openToOffline_iff {c : Command} : c.openToOffline = true ↔ c = .join ∨ c = .status ∨ c = .nop := by
  cases c <;> simp [Command.openToOffline]

/-- Only DEFINE_ENTRY and DELETE_ENTRY are refused with data (R162). -/
theorem portRefusalData_eq (s : State) (c : Command) : portRefusalData s c = refusalData s c := by
  cases c <;> rfl

/-- A lost transaction is over with nothing taken, whatever it carried (R156, R157). -/
theorem exec_of_lost {i : Instr} {p : Port} {s : State} (port : portOf i = some p) (rises : i ≠ .csFalls p)
    (lost : s.transactionLost p = true) : exec i s = .next (transactionOver p s) := by
  rcases portOf_cases port with ⟨mosi, rfl⟩ | rfl | rfl | ⟨c, tag, args, parts⟩
  · exact congrArg _ (if_pos lost)
  · rfl
  · exact absurd rfl rises
  · obtain ⟨L, body, -, run, -⟩ := exec_of_parts parts
    rw [run, takeCommand_lost lost, endTransaction_eq]

/-- A command with an argument length that R178 does not list is answered ARGUMENT (R161 check 7). -/
theorem takeCommand_argument {p : Port} {c : Command} {tag : Byte} {L : Nat} {body : State → Reply} {s : State}
    (hears : s.transactionLost p = false) (able : s.isOnline p = true ∨ c.openToOffline = true)
    (unlisted : c.accepts L = false) :
    takeCommand p c tag L body s = answered p tag .argument (refusalData s c) s := by
  have passes : (!s.isOnline p && !c.openToOffline) = false := by
    rcases able with h | h <;> simp [h]
  simp only [takeCommand, hears, passes, unlisted, Bool.not_false, if_true, Bool.false_eq_true, if_false]
  rw [rejection, portRefusalData_eq, respond_endTransaction]

/-- Settles O6: checks 6 and 7 of `takeCommand` come before the block's `body`. -/
theorem portUnitAnswersBeforeAnyBlock : Obligations.PortUnitAnswersBeforeAnyBlock := by
  refine ⟨fun i p s port rises deaf => exec_of_lost port rises (transactionLost_iff.mpr deaf),
    fun i p c tag args s parts hears => ?_⟩
  obtain ⟨L, body, rfl, run, -⟩ := exec_of_parts parts
  have taken := transactionLost_of_hears hears
  simp only [run, ← openToOffline_iff, Bool.not_eq_true]
  refine ⟨fun offline closed => ?_, fun able unlisted => ?_⟩
  · rw [takeCommand_offline taken offline closed, rejection, portRefusalData_eq, respond_endTransaction]
  · rw [takeCommand_argument taken able unlisted]

/-- Settles O15: each of the eight is `claimed` before its own checks. -/
theorem layoutCommandsNeedModeAndClaim : Obligations.LayoutCommandsNeedModeAndClaim := by
  intro i p c tag args s parts layout accepted taken
  obtain ⟨L, body, rfl, run, checked⟩ := exec_of_parts parts
  obtain ⟨checks, reply⟩ := checked layout
  rw [run]
  refine ⟨fun mode => takeCommand_answered taken accepted ?_, fun config other => takeCommand_answered taken accepted ?_⟩
  · exact (reply _).trans (if_pos mode)
  · exact (reply _).trans ((if_neg (not_not.mpr config)).trans (if_pos other))

theorem claimReply_free {p : Port} {s : State} (config : s.mode = .config) (free : s.claim = none) :
    claimReply p s = answer { s with claim := some p } .ok [portByte p] := by
  simp [claimReply, config, free]

theorem releaseClaimReply_own {p : Port} {s : State} (config : s.mode = .config) (own : s.claim = some p) :
    releaseClaimReply p s = answer { s with claim := none } .ok [] := by
  simp [releaseClaimReply, config, own]

/-- Settles O14: the rows of R143 and R144, each by the mode and the holder of the claim. -/
theorem claimIsTakenAndGivenUp : Obligations.ClaimIsTakenAndGivenUp := by
  intro p tag s taken
  have claims {t : State} {status : Status} {data : List Byte}
      (h : claimReply p (s.endTransaction p) = answer (t.endTransaction p) status data) :
      exec (.claimConfig p tag) s = .next (answered p tag status data t) := takeCommand_answered taken rfl h
  have releases {t : State} {status : Status} {data : List Byte}
      (h : releaseClaimReply p (s.endTransaction p) = answer (t.endTransaction p) status data) :
      exec (.releaseConfig p tag) s = .next (answered p tag status data t) := takeCommand_answered taken rfl h
  refine ⟨fun mode => ⟨claims ?_, releases ?_⟩, fun config free => ⟨claims ?_, releases ?_⟩,
    fun config own => ⟨claims ?_, releases ?_⟩, fun q other config held => ⟨claims ?_, releases ?_⟩⟩
  · simp [claimReply, mode]
  · simp [releaseClaimReply, mode]
  · exact claimReply_free config free
  · simp [releaseClaimReply, config, free, optionalPort]
  · simp [claimReply, config, own]
  · exact releaseClaimReply_own config own
  · simp [claimReply, config, held, other]
  · simp [releaseClaimReply, config, held, other, optionalPort]

/-! ### The chip select (R156, R159) -/

theorem exec_csFalls_idle {s : State} {p : Port} (idle : (s.portUnit p).transaction = .idle) :
    exec (.csFalls p) s = .next (s.setPort p
      { s.portUnit p with transaction := if s.resetLow then .lost else .shifting (s.portUnit p).response }) := by
  change execCsFalls p s = _
  simp only [execCsFalls, idle]

theorem exec_csFalls_busy {s : State} {p : Port} (busy : (s.portUnit p).transaction ≠ .idle) :
    exec (.csFalls p) s = .next s := by
  change execCsFalls p s = _
  cases now : (s.portUnit p).transaction with
  | idle => exact absurd now busy
  | shifting response => simp only [execCsFalls, now]
  | lost => simp only [execCsFalls, now]

/-- Settles O8, by the transaction in progress and the level of RESET#. -/
theorem chipSelectShiftsHeldResponse : Obligations.ChipSelectShiftsHeldResponse := by
  refine ⟨fun p s => rfl, fun p s idle high => ⟨_, exec_csFalls_idle idle, ?_, fun n => ?_⟩, fun p s idle low => ?_,
    fun p s busy => exec_csFalls_busy busy, fun r => ?_⟩
  · simp [high]
  · simp [high, PortUnit.misoByte]
  · simp [exec_csFalls_idle idle, low]
  · obtain ⟨tag, status, data⟩ := r
    cases status <;> rfl

/-! ## Device reset (R155 to R157) -/

/-- Settles O4: at RESET_DEVICE the caller's own transaction is over when the reset comes. -/
theorem deviceResetRestoresEveryBlock : Obligations.DeviceResetRestoresEveryBlock := by
  refine ⟨fun _ => rfl, fun _ => rfl, fun _ => rfl, fun _ => rfl, fun p tag s taken config claim => ?_⟩
  obtain ⟨⟨high, intact⟩, online⟩ := taken
  have accepted : claimed p [] (fun s => ⟨deviceReset s, .ok, [], false⟩) (s.endTransaction p)
      = ⟨deviceReset (s.endTransaction p), .ok, [], false⟩ := by simp [claimed, config, claim]
  change Host.Outcome.next (takeCommand _ _ _ _ _ _) = _
  rw [takeCommand_taken (transactionLost_of_hears ⟨high, intact⟩) (.inl online) rfl, accepted]
  have lost : (fun q => resetPort ((s.endTransaction p).portUnit q)) = fun q =>
      { PortUnit.reset with transaction := if q = p ∨ (s.portUnit q).transaction = .idle then .idle else .lost } := by
    funext q
    rw [State.endTransaction, portUnit_setPort]
    by_cases own : p = q
    · simp [resetPort, own]
    · simp [resetPort, own, Ne.symm own]
  simp only [deviceReset, lost, endTransaction_resetLow, endTransaction_now, endTransaction_pending, high,
    Bool.false_eq_true, if_false]

end Sys2Proof.Proofs
end

section
namespace Sys2Proof.Proofs

open Sys2Proof Sys2Proof.Machine

/-! ## The level of RESET# after every command (R156)

RESET# is an input: only its two edges move it. So a step from a part that is not held in reset ends in one that is only by
RESET_ASSERT. -/

theorem resetLow_foldl {α : Type} {f : State → α → State} (each : ∀ s a, (f s a).resetLow = s.resetLow) (l : List α)
    (s : State) : (l.foldl f s).resetLow = s.resetLow := by
  induction l generalizing s with
  | nil => rfl
  | cons a rest ih => exact (ih (f s a)).trans (each s a)

theorem resetLow_ite {c : Prop} [Decidable c] {s t u : State} (yes : t.resetLow = s.resetLow)
    (no : u.resetLow = s.resetLow) : (if c then t else u).resetLow = s.resetLow := by
  split
  · exact yes
  · exact no

/-! ### The shared operations -/

@[simp] theorem freeLease_resetLow (g : GroupId) (event : FreeingEvent) (s : State) :
    (freeLease g event s).resetLow = s.resetLow := by rw [freeLease_eq]

@[simp] theorem giveUpLease_resetLow (g : GroupId) (event : FreeingEvent) (s : State) :
    (giveUpLease g event s).resetLow = s.resetLow := by
  rw [giveUpLease_eq, freeLease_resetLow, stagingDiscarded]
  split <;> rfl

@[simp] theorem changeMode_resetLow (new : Mode) (s : State) : (changeMode new s).resetLow = s.resetLow := by
  rw [changeMode_eq]

@[simp] theorem handOn_resetLow (kind : BoundaryKind) (frame : Half) (s : State) :
    (handOn kind frame s).resetLow = s.resetLow := rfl

@[simp] theorem tellTiming_resetLow (m : ModeMessage) (s : State) : (tellTiming m s).resetLow = s.resetLow := rfl

@[simp] theorem enterConfig_resetLow (s : State) : (enterConfig s).resetLow = s.resetLow := by rw [enterConfig_eq]

@[simp] theorem commitGroup_resetLow (frame : Half) (g : GroupId) (s : State) :
    (commitGroup frame g s).resetLow = s.resetLow := by rw [commitGroup_eq]

@[simp] theorem deferGroup_resetLow (g : GroupId) (s : State) : (deferGroup g s).resetLow = s.resetLow := by
  rw [deferGroup_eq]

@[simp] theorem produceBoundary_resetLow (time : Nat) (frame : Half) (substitute : Option Byte) (s : State) :
    (produceBoundary time frame substitute s).resetLow = s.resetLow := by rw [produceBoundary_eq]

@[simp] theorem revokeLease_resetLow (g : GroupId) (s : State) : (revokeLease g s).resetLow = s.resetLow := by
  unfold revokeLease
  simp only [giveUpLease_resetLow]
  split <;> simp only [notifyOptional_resetLow]

@[simp] theorem lapseGroup_resetLow (g : GroupId) (s : State) : (lapseGroup g s).resetLow = s.resetLow := by
  simp only [lapseGroup, notifyEach_resetLow, setGroup_resetLow]

@[simp] theorem leaveGroup_resetLow (p : Port) (s : State) (g : GroupId) : (leaveGroup p s g).resetLow = s.resetLow := by
  unfold leaveGroup
  simp only [modifyGroup_resetLow]
  split <;> simp only [giveUpLease_resetLow, modifyGroup_resetLow]

/-! ### Commands of a port -/

theorem resetLow_takeCommand {p : Port} {c : Command} {tag : Byte} {L : Nat} {body : State → Reply} {s : State}
    (h : ∀ t, (body t).state.resetLow = t.resetLow) : (takeCommand p c tag L body s).resetLow = s.resetLow :=
  takeCommand_keeps (P := fun t => t.resetLow = s.resetLow) rfl (fun _ _ => id) (h _)

theorem resetLow_claimed {p : Port} {data : List Byte} {body : State → Reply} {s : State}
    (h : (body s).state.resetLow = s.resetLow) : (claimed p data body s).state.resetLow = s.resetLow := by
  rcases claimed_cases p data body s with ⟨-, eq⟩ | ⟨-, -, eq⟩ | ⟨-, -, eq⟩ <;> rw [eq]
  · rfl
  · rfl
  · exact h

theorem resetLow_modeChecked {modes : Mode → Bool} {body : State → Reply} {s : State}
    (h : (body s).state.resetLow = s.resetLow) : (modeChecked modes body s).state.resetLow = s.resetLow := by
  unfold modeChecked
  split
  · exact h
  · rfl

theorem resetLow_groupChecked {group : Byte} {body : GroupId → State → Reply} {s : State}
    (h : ∀ g, (body g s).state.resetLow = s.resetLow) : (groupChecked group body s).state.resetLow = s.resetLow := by
  unfold groupChecked
  split
  · rfl
  · exact h _

theorem resetLow_entryChecked {index : Byte} {body : Entry → State → Reply} {s : State}
    (h : ∀ e, (body e s).state.resetLow = s.resetLow) : (entryChecked index body s).state.resetLow = s.resetLow := by
  unfold entryChecked
  split
  · rfl
  · exact h _

theorem resetLow_withLease {p : Port} {g : GroupId} {body : State → Reply} {s : State}
    (h : (body s).state.resetLow = s.resetLow) : (withLease p g body s).state.resetLow = s.resetLow := by
  unfold withLease
  split
  · exact h
  · rfl

section
variable (p : Port) (index group : Byte) (s : State)

theorem resetLow_joinReply (attention : Byte) : (joinReply p attention s).state.resetLow = s.resetLow := by
  unfold joinReply
  split
  · rfl
  · dsimp only
    split <;> rfl

theorem resetLow_leaveReply : (leaveReply p s).state.resetLow = s.resetLow := by
  have left := resetLow_foldl (leaveGroup_resetLow p) allGroups s
  unfold leaveReply
  generalize allGroups.foldl (leaveGroup p) s = t at left ⊢
  exact left

theorem resetLow_fetchReply (n : Byte) : (fetchReply p n s).state.resetLow = s.resetLow := by
  unfold fetchReply
  split <;> rfl

theorem resetLow_claimReply : (claimReply p s).state.resetLow = s.resetLow := by
  unfold claimReply
  split
  · rfl
  · split <;> rfl

theorem resetLow_releaseClaimReply : (releaseClaimReply p s).state.resetLow = s.resetLow := by
  unfold releaseClaimReply
  split
  · rfl
  · split <;> rfl

theorem resetLow_startBody : (startBody s).state.resetLow = s.resetLow := by
  unfold startBody
  split
  · rfl
  · simp only [answer, tellTiming_resetLow, changeMode_resetLow]

theorem resetLow_stopReply : (stopReply s).state.resetLow = s.resetLow := by
  unfold stopReply
  split
  · rfl
  · rfl
  · exact changeMode_resetLow .stopping s.voidWork
  all_goals exact enterConfig_resetLow s

theorem resetLow_resumeReply : (resumeReply s).state.resetLow = s.resetLow := by
  unfold resumeReply
  split <;> rfl

theorem resetLow_defineEntryBody (width writers limits : Byte) (words : List Word) :
    (defineEntryBody index group width writers limits words s).state.resetLow = s.resetLow := by
  unfold defineEntryBody
  split
  · rfl
  · split_ifs <;> rfl

theorem resetLow_defineFanBody (writers : Byte) (targets : List Byte) :
    (defineFanBody index group writers targets s).state.resetLow = s.resetLow := by
  unfold defineFanBody
  split
  · rfl
  · split <;> rfl

theorem resetLow_deleteEntryBody : (deleteEntryBody index s).state.resetLow = s.resetLow := by
  unfold deleteEntryBody
  split <;> rfl

theorem resetLow_defineGroupBody (staleLimit ackDeadline patienceLimit : Byte) :
    (defineGroupBody group staleLimit ackDeadline patienceLimit s).state.resetLow = s.resetLow := by
  unfold defineGroupBody
  split
  · rfl
  · split <;> rfl

theorem resetLow_defineBundleBody (bundle : Byte) (list : List Byte) :
    (defineBundleBody bundle list s).state.resetLow = s.resetLow := by
  unfold defineBundleBody
  repeat' split
  all_goals rfl

theorem resetLow_setFrameBody (source : Byte) (period : Word) :
    (setFrameBody source period s).state.resetLow = s.resetLow := by
  unfold setFrameBody
  split
  · rfl
  · split <;> rfl

theorem resetLow_leaseReply : (leaseReply p group s).state.resetLow = s.resetLow := by
  rw [leaseReply_eq]
  refine resetLow_modeChecked (resetLow_groupChecked fun g => ?_)
  unfold leaseGroup
  dsimp only
  split
  · rfl
  · split <;> rfl

theorem resetLow_releaseReply : (releaseReply p group s).state.resetLow = s.resetLow := by
  rw [releaseReply_eq]
  refine resetLow_modeChecked (resetLow_groupChecked fun g => ?_)
  unfold releaseGroup
  dsimp only
  split
  · exact giveUpLease_resetLow g .release s
  · split <;> rfl

theorem resetLow_stageValue (words : List Word) (v : ValueEntry) :
    (stageValue p index words v s).state.resetLow = s.resetLow := by
  unfold stageValue
  split
  · rfl
  · split
    · rfl
    · split <;> rfl

theorem resetLow_stageFan (words : List Word) (f : FanEntry) :
    (stageFan p index words f s).state.resetLow = s.resetLow := by
  have written : ∀ staged, (openStaging f.group (writeTargets s staged)).resetLow = s.resetLow := fun staged => by
    rw [openStaging, modifyGroup_resetLow, writeTargets_eq]
  unfold stageFan
  split
  · split
    · rfl
    · split
      · rfl
      · split
        · rfl
        · exact written _
  · rfl

theorem resetLow_stageReply (words : List Word) : (stageReply p index words s).state.resetLow = s.resetLow := by
  rw [stageReply_eq]
  refine resetLow_modeChecked (resetLow_entryChecked fun e => resetLow_withLease ?_)
  split
  · rfl
  all_goals
    split
    · exact resetLow_stageValue p index s words _
    · exact resetLow_stageFan p index s words _

theorem resetLow_unstageReply : (unstageReply p index s).state.resetLow = s.resetLow := by
  rw [unstageReply_eq]
  refine resetLow_modeChecked (resetLow_entryChecked fun e => resetLow_withLease ?_)
  split
  · rfl
  · rfl
  · split
    · change (unstageAll s (unstageIndices index e)).resetLow = s.resetLow
      rw [unstageAll_eq]
    · rfl

theorem resetLow_sealReply (delay marked : Byte) : (sealReply p group delay marked s).state.resetLow = s.resetLow := by
  rw [sealReply_eq]
  refine resetLow_modeChecked (resetLow_groupChecked fun g => ?_)
  unfold sealChecked
  split
  · rfl
  · split
    · rfl
    · refine resetLow_withLease ?_
      split <;> rfl

theorem resetLow_unsealReply : (unsealReply p group s).state.resetLow = s.resetLow := by
  rw [unsealReply_eq]
  refine resetLow_modeChecked (resetLow_groupChecked fun g => resetLow_withLease ?_)
  dsimp only
  split <;> rfl

theorem resetLow_readStagedReply : (readStagedReply p index s).state.resetLow = s.resetLow := by
  rw [readStagedReply_eq]
  refine resetLow_modeChecked (resetLow_entryChecked fun e => resetLow_withLease ?_)
  split
  · rfl
  · split <;> rfl

theorem resetLow_subscribeReply (mode : Byte) : (subscribeReply p group mode s).state.resetLow = s.resetLow := by
  unfold subscribeReply
  split
  · rfl
  · split <;> rfl

theorem resetLow_ackReply (epoch : Half) : (ackReply p group epoch s).state.resetLow = s.resetLow := by
  rw [ackReply_eq]
  refine resetLow_modeChecked (resetLow_groupChecked fun g => ?_)
  unfold ackGroup
  split
  · rfl
  · split <;> rfl

end

/-! ### Happenings that are no command of a port -/

section
variable (s : State)

theorem resetLow_evaluateGroup (frame : Half) (g : GroupId) : (evaluateGroup frame g s).resetLow = s.resetLow :=
  resetLow_ite (s := s) (resetLow_ite (commitGroup_resetLow frame g (lowerCountdown g s))
    (deferGroup_resetLow g (lowerCountdown g s))) rfl

theorem resetLow_evaluateBundle (frame : Half) (b : BundleId) : (evaluateBundle frame b s).resetLow = s.resetLow := by
  have lowered : (countedDown s b).resetLow = s.resetLow := by rw [countedDown_eq]
  exact resetLow_ite ((resetLow_foldl (fun t g => commitGroup_resetLow frame g t) _ _).trans lowered)
    ((resetLow_foldl (fun t g => deferGroup_resetLow g t) _ _).trans lowered)

theorem resetLow_advancePatience (g : GroupId) : (advancePatience g s).resetLow = s.resetLow :=
  resetLow_ite (resetLow_ite (revokeLease_resetLow g _) rfl) rfl

theorem resetLow_ageGroup (g : GroupId) : (ageGroup g s).resetLow = s.resetLow :=
  resetLow_ite rfl (resetLow_ite (lapseGroup_resetLow g _) rfl)

theorem resetLow_takeEdge (time : Nat) : (takeEdge time s).resetLow = s.resetLow := by
  unfold takeEdge judgeEdge
  repeat' split
  all_goals simp only [produceBoundary_resetLow]

theorem resetLow_expireWindow (last : Nat) : (expireWindow last s).resetLow = s.resetLow :=
  resetLow_ite (produceBoundary_resetLow _ _ _ _) rfl

theorem resetLow_takeBoundary (frame : Half) : (takeBoundary frame s).resetLow = s.resetLow := by
  unfold takeBoundary
  split
  · rfl
  · split
    · rfl
    all_goals simp only [handOn_resetLow, changeMode_resetLow, enterConfig_resetLow]

theorem resetLow_takeFrameLoss : (takeFrameLoss s).resetLow = s.resetLow := by
  unfold takeFrameLoss
  split
  · rfl
  · split
    · exact changeMode_resetLow .fault s
    · exact enterConfig_resetLow s
    all_goals rfl

end

/-- A command other than the two edges of RESET# leaves its level as it was. -/
theorem exec_resetLow (c : Instr) (s : State) (falls : c ≠ .resetAssert) (rises : c ≠ .resetRelease) :
    ∃ t, exec c s = .next t ∧ t.resetLow = s.resetLow := by
  match c with
  | .nop _ _ | .status _ _ => exact ⟨_, rfl, resetLow_takeCommand fun _ => rfl⟩
  | .join p _ attention => exact ⟨_, rfl, resetLow_takeCommand fun t => resetLow_joinReply p t attention⟩
  | .leave p _ => exact ⟨_, rfl, resetLow_takeCommand (resetLow_leaveReply p)⟩
  | .fetch p _ n => exact ⟨_, rfl, resetLow_takeCommand fun t => resetLow_fetchReply p t n⟩
  | .claimConfig p _ => exact ⟨_, rfl, resetLow_takeCommand (resetLow_claimReply p)⟩
  | .releaseConfig p _ => exact ⟨_, rfl, resetLow_takeCommand (resetLow_releaseClaimReply p)⟩
  | .start _ _ => exact ⟨_, rfl, resetLow_takeCommand fun t => resetLow_claimed (resetLow_startBody t)⟩
  | .stop _ _ => exact ⟨_, rfl, resetLow_takeCommand resetLow_stopReply⟩
  | .resume _ _ => exact ⟨_, rfl, resetLow_takeCommand resetLow_resumeReply⟩
  | .resetDevice _ _ => exact ⟨_, rfl, resetLow_takeCommand fun _ => resetLow_claimed rfl⟩
  | .defineEntry _ _ index group width writers limits words =>
    exact ⟨_, rfl, resetLow_takeCommand fun t =>
      resetLow_claimed (resetLow_defineEntryBody index group t width writers limits words)⟩
  | .defineFan _ _ index group writers targets =>
    exact ⟨_, rfl, resetLow_takeCommand fun t =>
      resetLow_claimed (resetLow_defineFanBody index group t writers targets)⟩
  | .deleteEntry _ _ index =>
    exact ⟨_, rfl, resetLow_takeCommand fun t => resetLow_claimed (resetLow_deleteEntryBody index t)⟩
  | .defineGroup _ _ group staleLimit ackDeadline patienceLimit =>
    exact ⟨_, rfl, resetLow_takeCommand fun t =>
      resetLow_claimed (resetLow_defineGroupBody group t staleLimit ackDeadline patienceLimit)⟩
  | .defineBundle _ _ bundle list =>
    exact ⟨_, rfl, resetLow_takeCommand fun t => resetLow_claimed (resetLow_defineBundleBody t bundle list)⟩
  | .setFrame _ _ source period =>
    exact ⟨_, rfl, resetLow_takeCommand fun t => resetLow_claimed (resetLow_setFrameBody t source period)⟩
  | .read _ _ index => exact ⟨_, rfl, resetLow_takeCommand fun t => by rw [state_readReply]⟩
  | .readSet _ _ indices => exact ⟨_, rfl, resetLow_takeCommand fun t => by rw [state_readSetReply]⟩
  | .groupStatus _ _ group => exact ⟨_, rfl, resetLow_takeCommand fun t => by rw [state_groupStatusReply]⟩
  | .lease p _ group => exact ⟨_, rfl, resetLow_takeCommand (resetLow_leaseReply p group)⟩
  | .release p _ group => exact ⟨_, rfl, resetLow_takeCommand (resetLow_releaseReply p group)⟩
  | .stage p _ index words => exact ⟨_, rfl, resetLow_takeCommand fun t => resetLow_stageReply p index t words⟩
  | .unstage p _ index => exact ⟨_, rfl, resetLow_takeCommand (resetLow_unstageReply p index)⟩
  | .seal p _ group delay marked =>
    exact ⟨_, rfl, resetLow_takeCommand fun t => resetLow_sealReply p group t delay marked⟩
  | .unseal p _ group => exact ⟨_, rfl, resetLow_takeCommand (resetLow_unsealReply p group)⟩
  | .readStaged p _ index => exact ⟨_, rfl, resetLow_takeCommand (resetLow_readStagedReply p index)⟩
  | .subscribe p _ group mode => exact ⟨_, rfl, resetLow_takeCommand fun t => resetLow_subscribeReply p group t mode⟩
  | .ack p _ group epoch => exact ⟨_, rfl, resetLow_takeCommand fun t => resetLow_ackReply p group t epoch⟩
  | .badframe p mosi =>
    refine ⟨_, rfl, ?_⟩
    repeat' split
    all_goals rfl
  | .pureRead _ | .powerUp => exact ⟨_, rfl, rfl⟩
  | .csFalls p =>
    refine ⟨_, rfl, ?_⟩
    split <;> rfl
  | .fsyncEdge time =>
    exact ⟨_, rfl, resetLow_ite rfl (resetLow_takeEdge s _)⟩
  | .internalTimer =>
    refine ⟨_, rfl, ?_⟩
    split
    · exact produceBoundary_resetLow _ _ _ _
    · exact produceBoundary_resetLow _ _ _ _
    · rfl
  | .windowExpiry =>
    refine ⟨_, rfl, ?_⟩
    split
    · exact resetLow_expireWindow s _
    · rfl
  | .frameLoss =>
    refine ⟨_, rfl, ?_⟩
    split
    · exact resetLow_takeFrameLoss _
    · rfl
  | .boundaryTaken =>
    refine ⟨_, rfl, ?_⟩
    split
    · exact resetLow_takeBoundary _ _
    · rfl
  | .enterFirst | .enterStopped | .commitPulseEnd =>
    refine ⟨_, rfl, ?_⟩
    split <;> rfl
  | .opening | .closing =>
    refine ⟨_, rfl, ?_⟩
    split
    · rfl
    · split <;> rfl
  | .groupEvaluation g =>
    refine ⟨_, rfl, ?_⟩
    split
    · rfl
    · exact resetLow_ite (resetLow_ite (resetLow_evaluateGroup _ _ g) rfl) rfl
  | .bundleEvaluation b =>
    refine ⟨_, rfl, ?_⟩
    split
    · rfl
    · exact resetLow_ite (resetLow_ite (resetLow_evaluateBundle _ _ b) rfl) rfl
  | .patienceStep g =>
    refine ⟨_, rfl, ?_⟩
    split
    · rfl
    · exact resetLow_ite (resetLow_advancePatience _ g) rfl
  | .ackStep g =>
    refine ⟨_, rfl, ?_⟩
    split
    · rfl
    · exact resetLow_ite (resetLow_ageGroup _ g) rfl
  | .noticeArrival p n => exact ⟨_, rfl, notify_resetLow s p n⟩

end Sys2Proof.Proofs
end

section
namespace Sys2Proof.Proofs

open Sys2Proof Sys2Proof.Machine

/-! ## A part held in reset (R156)

After a device reset, and while RESET# is low, every command leaves a state that a device reset gives. -/

/-- A device reset at one port is that of the port's own unit (R157). -/
theorem deviceReset_setPort (s : State) (p : Port) (u : PortUnit) :
    deviceReset (s.setPort p u) = (deviceReset s).setPort p (resetPort u) := by
  have units : PerPort.ofFun (fun q => resetPort ((s.setPort p u).portUnit q)) =
      (PerPort.ofFun fun q => resetPort (s.portUnit q)).set p (resetPort u) := by
    apply PerPort.ext_get
    intro q
    rw [PerPort.get_ofFun, PerPort.get_set, PerPort.get_ofFun, portUnit_setPort, apply_ite resetPort]
  unfold deviceReset
  rw [units]
  rfl

theorem transactionOver_deviceReset (p : Port) (s : State) :
    transactionOver p (deviceReset s) = deviceReset (transactionOver p s) := by
  rw [transactionOver, transactionOver, deviceReset_setPort, portUnit_deviceReset]
  rfl

theorem exec_csFalls_deviceReset (p : Port) {s : State} (low : s.resetLow = true) :
    ∃ u, exec (.csFalls p) (deviceReset s) = .next (deviceReset u) := by
  by_cases idle : ((deviceReset s).portUnit p).transaction = .idle
  · refine ⟨s.setPort p { s.portUnit p with transaction := .lost }, ?_⟩
    rw [exec_csFalls_idle idle, show (deviceReset s).resetLow = true from low, if_pos rfl, deviceReset_setPort,
      portUnit_deviceReset]
    rfl
  · exact ⟨s, exec_csFalls_busy idle⟩

theorem exec_noticeArrival_deviceReset (p : Port) (n : Notice) (s : State) :
    exec (.noticeArrival p n) (deviceReset s) = .next (deviceReset s) := by
  rw [exec_noticeArrival, notify_offline]
  rw [portUnit_deviceReset]
  rfl

/-- The happenings that are no transaction find no work in flight and no timer running. -/
theorem exec_happening_deviceReset {c : Instr} {s : State} (inner : portOf c = none) (low : s.resetLow = true)
    (held : c ≠ .resetRelease) : ∃ u, exec c (deviceReset s) = .next (deviceReset u) := by
  cases c
  case resetRelease => exact absurd rfl held
  case resetAssert =>
    have again : { deviceReset (deviceReset s) with resetLow := true } = deviceReset { s with resetLow := true } :=
      congrArg (fun t : State => { t with resetLow := true }) (deviceReset_deviceReset s)
    exact ⟨_, congrArg Host.Outcome.next again⟩
  case powerUp => exact ⟨s, congrArg Host.Outcome.next (deviceReset_deviceReset s)⟩
  case noticeArrival p n => exact ⟨s, exec_noticeArrival_deviceReset p n s⟩
  case fsyncEdge time => exact ⟨{ s with now := max s.now time }, exec_fsyncEdge_in_reset time low⟩
  case internalTimer | windowExpiry | frameLoss | boundaryTaken | enterFirst | enterStopped | opening | groupEvaluation
      | bundleEvaluation | closing | commitPulseEnd | patienceStep | ackStep =>
    exact ⟨s, rfl⟩
  all_goals cases inner

/-- While RESET# is low no command takes a part out of the state that a device reset gives. -/
theorem exec_deviceReset {c : Instr} {s : State} (low : s.resetLow = true) (held : c ≠ .resetRelease) :
    ∃ u, exec c (deviceReset s) = .next (deviceReset u) := by
  cases port : portOf c with
  | some p =>
    by_cases falls : c = .csFalls p
    · rw [falls]
      exact exec_csFalls_deviceReset p low
    · have lost : (deviceReset s).transactionLost p = true := transactionLost_iff.mpr fun ⟨high, _⟩ => by
        exact absurd (low.symm.trans high) nofun
      exact ⟨_, (exec_of_lost port falls lost).trans (congrArg _ (transactionOver_deviceReset p s))⟩
  | none => exact exec_happening_deviceReset port low held

theorem heldInReset_deviceReset (s : State) : HeldInReset (deviceReset s) := fun _ => deviceReset_deviceReset s

/-- Settles O56: RESET# falls only by its own edge, which resets the part, and while it is low no command undoes the reset. -/
theorem stepKeepsHeldInReset : Obligations.StepKeepsHeldInReset := by
  intro s t held hstep
  cases next : s.pending with
  | nil => rw [step_idle next hstep]; exact held
  | cons c rest =>
    simp only [step, next] at hstep
    by_cases falls : c = .resetAssert
    · subst falls
      cases hstep
      exact heldInReset_deviceReset { s with pending := rest, resetLow := true }
    by_cases rises : c = .resetRelease
    · subst rises
      cases hstep
      exact nofun
    cases low : s.resetLow with
    | true =>
      have kept : { s with pending := rest } = deviceReset { s with pending := rest } :=
        congrArg (fun u : State => { u with pending := rest }) (held low).symm
      obtain ⟨u, hu⟩ := exec_deviceReset (s := { s with pending := rest }) low rises
      rw [kept, hu] at hstep
      cases hstep
      exact heldInReset_deviceReset u
    | false =>
      obtain ⟨u, hu, level⟩ := exec_resetLow c { s with pending := rest } falls rises
      rw [hu] at hstep
      cases hstep
      exact fun now => absurd ((level.trans low).symm.trans now) nofun

end Sys2Proof.Proofs
end

section
namespace Sys2Proof.Proofs

open Sys2Proof Sys2Proof.Machine

/-! ## What becomes of a port unit in a step (R159 to R174)

A port unit changes in the few ways of `UnitChange`. Every step is, at each port, a run of such changes (`step_moves`), so a
law that speaks of one port unit at a time needs a look at each of them only (`unit_law`). -/

/-- The changes of one port unit. A new response is short wherever the entries have their shapes. -/
inductive UnitChange (shaped : Prop) (u : PortUnit) : PortUnit → Prop
  | told (n : Notice) (frame : Half) (online : u.session = .online) :
      UnitChange shaped u { u with queue := enqueue u.queue n frame }
  | begun (transaction : Transaction) (held : ∀ r, transaction = .shifting r → r = u.response) :
      UnitChange shaped u { u with transaction := transaction }
  | ended : UnitChange shaped u { u with transaction := .idle }
  | answered (r : Response) (short : shaped → r.data.length ≤ 160) : UnitChange shaped u { u with response := r }
  | joined (sessionNumber : Byte) (attention : Bool) :
      UnitChange shaped u { u with session := .online, sessionNumber := sessionNumber, attention := attention }
  | fetched (n : Nat) : UnitChange shaped u { u with queue := u.queue.drop n }
  | left : UnitChange shaped u { u with session := .offline, attention := false, queue := [] }
  | reset : UnitChange shaped u (resetPort u)

/-- Every port unit has gone through a run of changes. -/
def Moves (shaped : Prop) (s t : State) : Prop :=
  ∀ p, Relation.ReflTransGen (UnitChange shaped) (s.portUnit p) (t.portUnit p)

theorem Moves.refl (shaped : Prop) (s : State) : Moves shaped s s := fun _ => .refl

theorem Moves.trans {shaped : Prop} {s t u : State} (h : Moves shaped s t) (k : Moves shaped t u) : Moves shaped s u :=
  fun p => (h p).trans (k p)

/-- An update of other fields than the ports. -/
theorem moves_of_ports {shaped : Prop} {s t u : State} (h : Moves shaped s t) (same : u.ports = t.ports) :
    Moves shaped s u := fun p => by
  rw [State.portUnit, State.portUnit, same]
  exact h p

/-- A law of a port unit that each of its changes keeps holds of every port unit still. -/
theorem unit_law {P : PortUnit → Prop} {shaped : Prop} (change : ∀ u v, P u → UnitChange shaped u v → P v) {s t : State}
    (h : ∀ p, P (s.portUnit p)) (moves : Moves shaped s t) (p : Port) : P (t.portUnit p) := by
  have run := moves p
  generalize t.portUnit p = u at run
  induction run with
  | refl => exact h p
  | tail _ last ih => exact change _ _ ih last

section
variable {shaped : Prop} {s t : State}

theorem moves_setPort {p : Port} {u : PortUnit} (change : UnitChange shaped (t.portUnit p) u) (h : Moves shaped s t) :
    Moves shaped s (t.setPort p u) := fun q => by
  rw [portUnit_setPort]
  split
  · next here => exact here ▸ (h p).tail change
  · exact h q

theorem moves_foldl {α : Type} {f : State → α → State} {l : List α}
    (each : ∀ {t} a, Moves shaped s t → Moves shaped s (f t a)) (h : Moves shaped s t) :
    Moves shaped s (l.foldl f t) := by
  induction l generalizing t with
  | nil => exact h
  | cons a rest ih => exact ih (each a h)

theorem moves_deviceReset (h : Moves shaped s t) : Moves shaped s (deviceReset t) := fun p => by
  rw [portUnit_deviceReset]
  exact (h p).tail .reset

/-! ### Notices (R170, R171) -/

theorem moves_notify {p : Port} {n : Notice} (h : Moves shaped s t) : Moves shaped s (t.notify p n) := by
  unfold State.notify
  split
  · next online => exact moves_setPort (.told n _ online) h
  · exact h

theorem moves_notifyOptional {p : Option Port} {n : Notice} (h : Moves shaped s t) :
    Moves shaped s (t.notifyOptional p n) := by
  cases p with
  | none => exact h
  | some p => exact moves_notify h

theorem moves_notifyEach {ports : List Port} {n : Port → Notice} (h : Moves shaped s t) :
    Moves shaped s (t.notifyEach ports n) :=
  moves_foldl (fun _ => moves_notify) h

/-! ### The operations that send notices -/

theorem moves_modifyGroup {g : GroupId} {f : Group → Group} (h : Moves shaped s t) :
    Moves shaped s (t.modifyGroup g f) := h

theorem moves_discardSet {g : GroupId} (h : Moves shaped s t) : Moves shaped s (discardSet g t) := h

theorem moves_voidWork (h : Moves shaped s t) : Moves shaped s t.voidWork := h

theorem moves_tellTiming {m : ModeMessage} (h : Moves shaped s t) : Moves shaped s (tellTiming m t) := h

theorem moves_handOn {kind : BoundaryKind} {frame : Half} (h : Moves shaped s t) :
    Moves shaped s (handOn kind frame t) := h

theorem moves_freeLease {g : GroupId} {event : FreeingEvent} (h : Moves shaped s t) :
    Moves shaped s (freeLease g event t) := by
  cases queue : (t.group g).waitQueue with
  | nil => rw [freeLease_nil queue]; exact h
  | cons next rest => rw [freeLease_cons queue]; exact moves_notify h

theorem moves_giveUpLease {g : GroupId} {event : FreeingEvent} (h : Moves shaped s t) :
    Moves shaped s (giveUpLease g event t) := by
  unfold giveUpLease
  split <;> exact moves_freeLease h

theorem moves_advancePatience {g : GroupId} (h : Moves shaped s t) : Moves shaped s (advancePatience g t) := by
  unfold advancePatience revokeLease
  simp only
  split
  · split
    · refine moves_giveUpLease ?_
      split
      · exact moves_notifyOptional (moves_notifyOptional h)
      · exact moves_notifyOptional h
    · exact h
  · exact h

theorem moves_changeMode {new : Mode} (h : Moves shaped s t) : Moves shaped s (changeMode new t) := moves_notifyEach h

theorem moves_teardownDiscardNotice {g : GroupId} {r : Group} (h : Moves shaped s t) :
    Moves shaped s (teardownDiscardNotice g r t) := by
  unfold teardownDiscardNotice
  split
  · exact h
  all_goals exact moves_notifyOptional h

theorem moves_teardownGroup {g : GroupId} (h : Moves shaped s t) : Moves shaped s (teardownGroup t g) := by
  unfold teardownGroup
  exact moves_modifyGroup (moves_discardSet (moves_teardownDiscardNotice (moves_notifyEach (moves_notifyOptional h))))

theorem moves_teardownAll (h : Moves shaped s t) : Moves shaped s (teardownAll t) :=
  moves_foldl (fun _ => moves_teardownGroup) h

theorem moves_enterConfig (h : Moves shaped s t) : Moves shaped s (enterConfig t) := by
  unfold enterConfig
  exact moves_tellTiming (moves_teardownAll (moves_changeMode (moves_voidWork h)))

theorem moves_commitGroup {frame : Half} {g : GroupId} (h : Moves shaped s t) : Moves shaped s (commitGroup frame g t) :=
  moves_notifyEach h

theorem moves_deferGroup {g : GroupId} (h : Moves shaped s t) : Moves shaped s (deferGroup g t) := by
  unfold deferGroup
  simp only
  split
  · exact moves_notifyEach h
  · exact h

theorem moves_evaluateGroup {frame : Half} {g : GroupId} (h : Moves shaped s t) :
    Moves shaped s (evaluateGroup frame g t) := by
  unfold evaluateGroup
  simp only
  split
  · split
    · exact moves_commitGroup h
    · exact moves_deferGroup h
  · exact h

theorem moves_evaluateBundle {frame : Half} {b : BundleId} (h : Moves shaped s t) :
    Moves shaped s (evaluateBundle frame b t) := by
  have lowered := moves_foldl (l := members (t.bundle b)) (f := fun t g => lowerCountdown g t) (fun _ => id) h
  unfold evaluateBundle
  simp only
  split
  · exact moves_foldl (fun _ => moves_commitGroup) lowered
  · exact moves_foldl (fun _ => moves_deferGroup) lowered

theorem moves_ageGroup {g : GroupId} (h : Moves shaped s t) : Moves shaped s (ageGroup g t) := by
  unfold ageGroup lapseGroup
  simp only
  split
  · exact h
  · split
    · exact moves_notifyEach (moves_notifyEach h)
    · exact h

theorem moves_produceBoundary {time : Nat} {frame : Half} {substitute : Option Byte} (h : Moves shaped s t) :
    Moves shaped s (produceBoundary time frame substitute t) := by
  have told : Moves shaped s (notifySubstitute substitute (stampBoundary time frame t)) := by
    cases substitute with
    | none => exact h
    | some count => exact moves_notifyEach (t := stampBoundary time frame t) h
  exact moves_of_ports told rfl

theorem moves_takeEdge {time : Nat} (h : Moves shaped s t) : Moves shaped s (takeEdge time t) := by
  unfold takeEdge judgeEdge
  split
  · exact moves_produceBoundary h
  · split
    · split
      · exact h
      · split
        · exact moves_produceBoundary h
        · exact h
    · exact h
  · split
    · exact moves_produceBoundary h
    · exact h
  all_goals exact h

theorem moves_takeBoundary {frame : Half} (h : Moves shaped s t) : Moves shaped s (takeBoundary frame t) := by
  unfold takeBoundary
  split
  · exact h
  · split
    · exact h
    · exact moves_handOn (moves_changeMode h)
    · exact h
    · exact moves_handOn (moves_changeMode h)
    · exact moves_handOn (moves_enterConfig h)

theorem moves_takeFrameLoss (h : Moves shaped s t) : Moves shaped s (takeFrameLoss t) := by
  unfold takeFrameLoss
  split
  · exact h
  · split
    · exact moves_changeMode h
    · exact moves_enterConfig h
    all_goals exact h

theorem moves_leaveGroup {p : Port} {g : GroupId} (h : Moves shaped s t) : Moves shaped s (leaveGroup p t g) := by
  unfold leaveGroup
  simp only
  split
  · exact moves_giveUpLease (t := t.modifyGroup g _) h
  · exact h

end

end Sys2Proof.Proofs
end

section
namespace Sys2Proof.Proofs

open Sys2Proof Sys2Proof.Machine

/-! ## How long response data can be (R163, R180, R181) -/

/-- Every defined entry has the shape of R1. -/
abbrev EntriesShaped (s : State) : Prop := ∀ i e, s.entry i = some e → EntryShaped e

@[simp] theorem length_halfBytes (h : Half) : (halfBytes h).length = 2 := rfl

@[simp] theorem length_wordBytes (w : Word) : (wordBytes w).length = 4 := rfl

@[simp] theorem length_countBytes (n : Nat) : (countBytes n).length = 2 := rfl

@[simp] theorem length_freeBytes (s : State) : (freeBytes s).length = 2 := rfl

@[simp] theorem length_optionalFrame (frame : Option Half) : (optionalFrame frame).length = 3 := by
  cases frame <;> rfl

@[simp] theorem length_groupStatusData (p : Port) (g : GroupId) (s : State) : (groupStatusData p g s).length = 34 := by
  simp [groupStatusData, queueBytes, Port.all]

/-- A notice record is 8 bytes, whatever the notice (R184). -/
@[simp] theorem length_queuedRecord (x : QueuedNotice) : (queuedRecord x).length = 8 := by
  cases x with
  | notice n frame => cases n <;> rfl
  | overflow count frame => rfl

/-! ### Words of shaped entries -/

/-- The words that READ_STAGED shows are as many as the entry is wide (R1, R62). -/
theorem length_shownWords {v : ValueEntry} (shaped : EntryShaped (.value v)) : (shownWords v).1.length = v.width := by
  obtain ⟨-, -, active, staged⟩ := shaped
  unfold shownWords
  split
  · next words held => exact staged words held
  · exact active

/-- The targets of a sound FAN are at most 4 entries of width 1 (R1, R14). -/
theorem fanTargets_shaped {s : State} {i : Byte} {f : FanEntry} {targets : List (Byte × ValueEntry)}
    (shaped : EntriesShaped s) (here : s.entry i = some (.fan f)) (found : fanTargets s f = some targets) :
    targets.length ≤ 4 ∧ ∀ x ∈ targets, EntryShaped (.value x.2) ∧ x.2.width = 1 := by
  obtain ⟨indices, each⟩ := collectTargets_eq_some found
  obtain ⟨-, few⟩ : 1 ≤ f.targets.length ∧ f.targets.length ≤ 4 := shaped i _ here
  refine ⟨by rw [← List.length_map (·.1), indices]; exact few, fun x hx => ?_⟩
  obtain ⟨defined, width, -⟩ := each x hx
  exact ⟨shaped _ _ defined, width⟩

/-- A read shows at most 4 words, as many as the width it shows (R16). -/
theorem readItem_shaped {s : State} {i : Byte} {width : Nat} {words : List Word} {e g : Half} (shaped : EntriesShaped s)
    (read : readItem s i = .item width words e g) : words.length = width ∧ width ≤ 4 := by
  unfold readItem at read
  split at read
  · cases read
  · next v here =>
    obtain ⟨-, wide, active, -⟩ := shaped i _ here
    cases read
    exact ⟨active, wide⟩
  · next f here =>
    split at read
    · next first v others found =>
      obtain ⟨⟨-, -, active, -⟩, width⟩ := (fanTargets_shaped shaped here found).2 _ List.mem_cons_self
      cases read
      exact ⟨active.trans width, by decide⟩
    · cases read

theorem length_admitTargets {p : Port} {w : Word} {targets : List (Byte × ValueEntry)} {staged : List (Byte × Word)}
    (h : admitTargets p w targets = .ok staged) : staged.length = targets.length := by
  induction targets generalizing staged with
  | nil => cases h; rfl
  | cons x rest ih =>
    rw [admitTargets] at h
    split at h
    · cases h
    · split at h
      · cases h
      · split at h
        · next others admitted => cases h; simp [ih admitted]
        · cases h

/-! ### Items -/

/-- Items of equal length in a list (R181). -/
theorem length_flatMap_eq {α : Type} {f : α → List Byte} {k : Nat} {l : List α} (each : ∀ a ∈ l, (f a).length = k) :
    (l.flatMap f).length = k * l.length := by
  rw [List.length_flatMap, List.map_congr_left each, List.map_const', List.sum_replicate, smul_eq_mul, mul_comm]

/-- The bytes of one item of READ_SET (R182). -/
def itemBytes (x : Nat × List Word × Half × Half) : List Byte := wordsBytes x.2.1 ++ halfBytes x.2.2.1 ++ halfBytes x.2.2.2

theorem readSetData_eq (items : List (Nat × List Word × Half × Half)) :
    readSetData items =
      (if (items.map (·.1)).all (· == 4) then [] else widthMap (items.map (·.1))) ++ items.flatMap itemBytes := rfl

/-- Items take at most 20 bytes each, and with a width below 4 among them at least 4 bytes fewer. -/
theorem length_items {items : List (Nat × List Word × Half × Half)}
    (shaped : ∀ x ∈ items, x.2.1.length = x.1 ∧ x.1 ≤ 4) :
    (items.flatMap itemBytes).length + (if (items.map (·.1)).all (· == 4) then 0 else 4) ≤ 20 * items.length := by
  induction items with
  | nil => simp
  | cons x rest ih =>
    obtain ⟨⟨words, wide⟩, others⟩ := List.forall_mem_cons.mp shaped
    have tail := ih others
    simp only [List.flatMap_cons, List.length_append, itemBytes, Laws.length_wordsBytes, words, length_halfBytes,
      List.length_cons, List.map_cons, List.all_cons, Bool.and_eq_true, beq_iff_eq] at tail ⊢
    split at tail
    · next full => simp only [full, and_true]; split <;> omega
    · next mixed => rw [if_neg fun both => mixed both.2]; omega

/-- READ_SET fits: the width map of 8 items takes 2 bytes, and is left out where the items take 160 (R182). -/
theorem length_readSetData {items : List (Nat × List Word × Half × Half)} (few : items.length ≤ 8)
    (shaped : ∀ x ∈ items, x.2.1.length = x.1 ∧ x.1 ≤ 4) : (readSetData items).length ≤ 160 := by
  have total := length_items shaped
  have codes := length_widthMap (items.map (·.1))
  rw [List.length_map] at codes
  rw [readSetData_eq, List.length_append]
  split at total
  · next full => rw [if_pos full, List.length_nil]; omega
  · next mixed => rw [if_neg mixed]; omega

theorem readItems_shaped {s : State} {indices : List Byte} {items : List (Nat × List Word × Half × Half)}
    (shaped : EntriesShaped s) (read : readItems s indices = .ok items) :
    items.length = indices.length ∧ ∀ x ∈ items, x.2.1.length = x.1 ∧ x.1 ≤ 4 := by
  induction indices generalizing items with
  | nil => cases read; simp
  | cons i rest ih =>
    rw [readItems] at read
    split at read
    · cases read
    · cases read
    · next first =>
      split at read
      · next others more =>
        cases read
        obtain ⟨len, each⟩ := ih more
        exact ⟨by simp [len], List.forall_mem_cons.mpr ⟨readItem_shaped shaped first, each⟩⟩
      · cases read

end Sys2Proof.Proofs
end

section
namespace Sys2Proof.Proofs

open Sys2Proof Sys2Proof.Machine

/-! ## What the blocks answer

Each reply moves the port units and has data of at most 160 bytes where the entries have their shapes. -/

/-- An answer that the port unit can hold. -/
structure Answers (s : State) (r : Reply) : Prop where
  moves : Moves (EntriesShaped s) s r.state
  short : EntriesShaped s → r.data.length ≤ 160

/-- An answer that leaves the ports alone. -/
theorem Answers.plain {s t : State} {status : Status} {data : List Byte} (short : EntriesShaped s → data.length ≤ 160)
    (same : t.ports = s.ports) : Answers s (answer t status data) :=
  ⟨moves_of_ports (.refl _ s) same, short⟩

/-- An answer with a few bytes of data, whatever the entries. -/
theorem Answers.brief {s t : State} {status : Status} {data : List Byte} (short : data.length ≤ 160)
    (same : t.ports = s.ports) : Answers s (answer t status data) :=
  .plain (fun _ => short) same

/-- The port unit's own refusals carry at most 2 bytes of data (R162). -/
theorem short_rejection (s : State) (tag : Byte) (cause : RejectCause) : (rejection s tag cause).data.length ≤ 160 := by
  cases cause with
  | badFrame reason received => simp [rejection]
  | unknown code => simp [rejection]
  | offline c => cases c <;> simp [rejection, portRefusalData]
  | argument c => cases c <;> simp [rejection, portRefusalData]

theorem moves_endTransaction {shaped : Prop} {p : Port} {s t : State} (h : Moves shaped s t) :
    Moves shaped s (t.endTransaction p) :=
  moves_setPort .ended h

theorem moves_respond {shaped : Prop} {p : Port} {s t : State} {r : Response} (short : shaped → r.data.length ≤ 160)
    (h : Moves shaped s t) : Moves shaped s (t.respond p r) :=
  moves_setPort (.answered r short) h

theorem moves_takeCommand {p : Port} {c : Command} {tag : Byte} {L : Nat} {body : State → Reply} {s : State}
    (h : ∀ t, c.accepts L = true → Answers t (body t)) : Moves (EntriesShaped s) s (takeCommand p c tag L body s) := by
  have ended : Moves (EntriesShaped s) s (s.endTransaction p) := moves_endTransaction (.refl _ s)
  rcases takeCommand_cases p c tag L body s with eq | ⟨cause, eq⟩ | ⟨-, -, accepted, eq⟩ <;> rw [eq]
  · exact ended
  · exact moves_respond (fun _ => short_rejection s tag cause) ended
  · obtain ⟨moves, short⟩ := h (s.endTransaction p) accepted
    split
    · exact moves_respond short (ended.trans moves)
    · exact ended.trans moves

/-! ### The checks before a block's own -/

section
variable {s : State}

theorem answers_modeChecked {modes : Mode → Bool} {body : State → Reply} (h : Answers s (body s)) :
    Answers s (modeChecked modes body s) := by
  unfold modeChecked
  split
  · exact h
  · exact .brief (by simp) rfl

theorem answers_groupChecked {group : Byte} {body : GroupId → State → Reply} (h : ∀ g, Answers s (body g s)) :
    Answers s (groupChecked group body s) := by
  unfold groupChecked
  split
  · exact .brief (by simp) rfl
  · exact h _

theorem answers_entryChecked {index : Byte} {body : Entry → State → Reply}
    (h : ∀ e, s.entry index = some e → Answers s (body e s)) : Answers s (entryChecked index body s) := by
  unfold entryChecked
  split
  · exact .brief (by simp) rfl
  · next here => exact h _ here

theorem answers_withLease {p : Port} {g : GroupId} {body : State → Reply} (h : Answers s (body s)) :
    Answers s (withLease p g body s) := by
  unfold withLease
  split
  · exact h
  · exact .brief (by simp) rfl

theorem answers_claimed {p : Port} {data : List Byte} {body : State → Reply} (refused : data.length ≤ 160)
    (h : Answers s (body s)) : Answers s (claimed p data body s) := by
  rcases claimed_cases p data body s with ⟨_, eq⟩ | ⟨_, _, eq⟩ | ⟨_, _, eq⟩ <;> rw [eq]
  · exact .brief refused rfl
  · exact .brief refused rfl
  · exact h

end

section
variable (p : Port) (group index : Byte) (s : State)

/-! ### Sessions, notices, the claim and the modes -/

theorem answers_joinReply (attention : Byte) : Answers s (joinReply p attention s) := by
  unfold joinReply
  split
  · exact .brief (by simp) rfl
  · simp only
    split
    · exact .brief (by simp) rfl
    · exact ⟨moves_setPort (.joined _ _) (.refl _ s), fun _ => by simp [answer]⟩

theorem answers_leaveReply : Answers s (leaveReply p s) := by
  have left : Moves (EntriesShaped s) s (allGroups.foldl (leaveGroup p) s) :=
    moves_foldl (fun _ => moves_leaveGroup) (.refl _ s)
  unfold leaveReply
  generalize allGroups.foldl (leaveGroup p) s = t at left ⊢
  exact ⟨moves_setPort .left (moves_of_ports left rfl), fun _ => by simp [answer]⟩

theorem answers_fetchReply (n : Byte) : Answers s (fetchReply p n s) := by
  unfold fetchReply
  split
  · exact .brief (by simp) rfl
  · next range =>
    refine ⟨moves_setPort (.fetched _) (.refl _ s), fun _ => ?_⟩
    have records := length_flatMap_eq (l := (s.portUnit p).queue.take n.toNat) fun x _ => length_queuedRecord x
    simp only [answer, List.length_append, List.length_cons, List.length_nil, records, List.length_take]
    omega

theorem answers_claimReply : Answers s (claimReply p s) := by
  unfold claimReply
  split
  · exact .brief (by simp) rfl
  · split <;> exact .brief (by simp) rfl

theorem answers_releaseClaimReply : Answers s (releaseClaimReply p s) := by
  unfold releaseClaimReply
  split
  · exact .brief (by simp) rfl
  · split <;> exact .brief (by simp) rfl

theorem answers_startBody : Answers s (startBody s) := by
  unfold startBody
  split
  · exact .brief (by simp) rfl
  · exact ⟨moves_tellTiming (moves_changeMode (t := { s with claim := none }) (.refl _ s)), fun _ => by simp [answer]⟩

theorem answers_stopReply : Answers s (stopReply s) := by
  unfold stopReply
  split
  · exact .brief (by simp) rfl
  · exact .brief (by simp) rfl
  · exact ⟨moves_changeMode (moves_voidWork (.refl _ s)), fun _ => by simp [answer]⟩
  all_goals exact ⟨moves_enterConfig (.refl _ s), fun _ => by simp [answer]⟩

theorem answers_resumeReply : Answers s (resumeReply s) := by
  unfold resumeReply
  split <;> exact .brief (by simp) rfl

/-! ### The layout, the parameters and the frame settings -/

theorem answers_defineEntryBody (width writers limits : Byte) (words : List Word) :
    Answers s (defineEntryBody index group width writers limits words s) := by
  unfold defineEntryBody
  split
  · exact .brief (by simp) rfl
  · split
    · exact .brief (by simp) rfl
    · split
      · exact .brief (by simp) rfl
      · split <;> exact .brief (by simp) rfl

theorem answers_defineFanBody (writers : Byte) (targets : List Byte) :
    Answers s (defineFanBody index group writers targets s) := by
  unfold defineFanBody
  split
  · exact .brief (by simp) rfl
  · split <;> exact .brief (by simp) rfl

theorem answers_deleteEntryBody : Answers s (deleteEntryBody index s) := by
  unfold deleteEntryBody
  split <;> exact .brief (by simp) rfl

theorem answers_defineGroupBody (staleLimit ackDeadline patienceLimit : Byte) :
    Answers s (defineGroupBody group staleLimit ackDeadline patienceLimit s) := by
  unfold defineGroupBody
  split
  · exact .brief (by simp) rfl
  · split <;> exact .brief (by simp) rfl

theorem answers_defineBundleBody (bundle : Byte) (list : List Byte) : Answers s (defineBundleBody bundle list s) := by
  unfold defineBundleBody
  split
  · exact .brief (by simp) rfl
  · split
    · exact .brief (by simp) rfl
    · split
      · exact .brief (by simp) rfl
      · split
        · exact .brief (by simp) rfl
        · split <;> exact .brief (by simp) rfl

theorem answers_setFrameBody (source : Byte) (period : Word) : Answers s (setFrameBody source period s) := by
  unfold setFrameBody
  split
  · exact .brief (by simp) rfl
  · split <;> exact .brief (by simp) rfl

/-! ### Reads -/

theorem answers_readReply : Answers s (readReply index s) := by
  unfold readReply
  split
  · exact .brief (by simp) rfl
  · exact .brief (by simp) rfl
  · next read =>
    refine .plain (fun shaped => ?_) rfl
    obtain ⟨len, wide⟩ := readItem_shaped shaped read
    simp only [List.length_append, List.length_cons, Laws.length_wordsBytes, len, length_halfBytes]
    omega

theorem answers_readSetReply {indices : List Byte} (few : indices.length ≤ 8) : Answers s (readSetReply indices s) := by
  unfold readSetReply
  split
  · exact .brief (by simp) rfl
  · next items read =>
    refine .plain (fun shaped => ?_) rfl
    obtain ⟨len, each⟩ := readItems_shaped shaped read
    exact length_readSetData (len ▸ few) each

theorem answers_groupStatusReply : Answers s (groupStatusReply p group s) := by
  unfold groupStatusReply
  split <;> exact .brief (by simp) rfl

/-! ### Leases, subscriptions and acknowledgments -/

theorem answers_leaseReply : Answers s (leaseReply p group s) := by
  rw [leaseReply_eq]
  refine answers_modeChecked (answers_groupChecked fun g => ?_)
  unfold leaseGroup leaseData
  simp only
  split
  · exact .brief (by simp) rfl
  · split <;> exact .brief (by simp) rfl

theorem answers_releaseReply : Answers s (releaseReply p group s) := by
  rw [releaseReply_eq]
  refine answers_modeChecked (answers_groupChecked fun g => ?_)
  unfold releaseGroup leaseData
  simp only
  split
  · exact ⟨moves_giveUpLease (.refl _ s), fun _ => by simp [answer]⟩
  · split <;> exact .brief (by simp) rfl

theorem answers_subscribeReply (mode : Byte) : Answers s (subscribeReply p group mode s) := by
  unfold subscribeReply
  split
  · exact .brief (by simp) rfl
  · split <;> exact .brief (by simp) rfl

theorem answers_ackReply (epoch : Half) : Answers s (ackReply p group epoch s) := by
  rw [ackReply_eq]
  refine answers_modeChecked (answers_groupChecked fun g => ?_)
  unfold ackGroup ackData
  split
  · exact .brief (by simp) rfl
  · split <;> exact .brief (by simp) rfl

/-! ### Staging and sealing -/

theorem answers_stageValue {words : List Word} {v : ValueEntry} (here : s.entry index = some (.value v)) :
    Answers s (stageValue p index words v s) := by
  unfold stageValue
  split
  · exact .brief (by simp) rfl
  · next width =>
    split
    · exact .brief (by simp) rfl
    · split
      · exact .brief (by simp) rfl
      · next staged admitted =>
        refine .plain (fun shaped => ?_) rfl
        obtain ⟨-, wide, -⟩ := shaped index _ here
        obtain ⟨len, -⟩ := admitWords_eq_some admitted
        simp only [List.length_append, List.length_cons, Laws.length_wordsBytes, len, not_not.mp width, length_countBytes]
        omega

theorem answers_stageFan {words : List Word} {f : FanEntry} (here : s.entry index = some (.fan f)) :
    Answers s (stageFan p index words f s) := by
  unfold stageFan
  split
  · split
    · exact .brief (by simp) rfl
    · split
      · exact .brief (by simp) rfl
      · next targets found =>
        split
        · exact .brief (by simp) rfl
        · next staged admitted =>
          refine .plain (fun shaped => ?_) (by rw [writeTargets_eq]; rfl)
          have few := (fanTargets_shaped shaped here found).1
          rw [List.length_append, List.length_cons, length_flatMap_eq (k := 5)]
          · rw [length_admitTargets admitted, length_countBytes]
            omega
          · exact fun _ _ => rfl
  · exact .brief (by simp) rfl

theorem answers_stageReply (words : List Word) : Answers s (stageReply p index words s) := by
  rw [stageReply_eq]
  refine answers_modeChecked (answers_entryChecked fun e here => answers_withLease ?_)
  split
  · exact .brief (by simp) rfl
  all_goals
    split
    · exact answers_stageValue p index s here
    · exact answers_stageFan p index s here

theorem answers_unstageReply : Answers s (unstageReply p index s) := by
  rw [unstageReply_eq]
  refine answers_modeChecked (answers_entryChecked fun e here => answers_withLease ?_)
  unfold unstageData
  split
  · exact .brief (by simp) rfl
  · exact .brief (by simp) rfl
  · split
    · exact .brief (by simp) (by rw [unstageAll_eq]; rfl)
    · exact .brief (by simp) rfl

theorem answers_sealReply (delay marked : Byte) : Answers s (sealReply p group delay marked s) := by
  rw [sealReply_eq]
  refine answers_modeChecked (answers_groupChecked fun g => ?_)
  unfold sealChecked
  split
  · exact .brief (by simp) rfl
  · split
    · exact .brief (by simp) rfl
    · refine answers_withLease ?_
      split <;> exact .brief (by simp) rfl

theorem answers_unsealReply : Answers s (unsealReply p group s) := by
  rw [unsealReply_eq]
  refine answers_modeChecked (answers_groupChecked fun g => answers_withLease ?_)
  simp only
  split <;> exact .brief (by simp) rfl

theorem answers_readStagedReply : Answers s (readStagedReply p index s) := by
  rw [readStagedReply_eq]
  refine answers_modeChecked (answers_entryChecked fun e here => answers_withLease ?_)
  split
  · next v =>
    refine .plain (fun shaped => ?_) rfl
    obtain ⟨-, wide, -⟩ := shaped index _ here
    have len := length_shownWords (shaped index _ here)
    simp only [List.length_append, List.length_cons, List.length_nil, Laws.length_wordsBytes, len]
    omega
  · split
    · exact .brief (by simp) rfl
    · next targets found =>
      refine .plain (fun shaped => ?_) rfl
      obtain ⟨few, each⟩ := fanTargets_shaped shaped here found
      rw [List.length_cons, length_flatMap_eq (k := 6)]
      · omega
      · rintro ⟨i, v⟩ member
        obtain ⟨target, width⟩ : EntryShaped (.value v) ∧ v.width = 1 := each _ member
        simp [Laws.length_wordsBytes, length_shownWords target, width]

end

end Sys2Proof.Proofs
end

section
namespace Sys2Proof.Proofs

open Sys2Proof Sys2Proof.Machine

/-! ## The port units after every step -/

/-! ### Happenings that are no command of a port -/

section
variable {shaped : Prop} {s : State}

theorem moves_badframe (p : Port) (mosi : List Byte) : ∃ t, execBadframe p mosi s = .next t ∧ Moves shaped s t := by
  have ended : Moves shaped s (s.endTransaction p) := moves_endTransaction (.refl _ s)
  refine ⟨_, rfl, ?_⟩
  split
  · exact ended
  · split
    · exact ended
    · split
      · exact moves_respond (fun _ => short_rejection s _ _) ended
      · exact .refl _ s

theorem moves_csFalls (p : Port) : ∃ t, execCsFalls p s = .next t ∧ Moves shaped s t := by
  refine ⟨_, rfl, ?_⟩
  split
  · refine moves_setPort (.begun _ fun r shifting => ?_) (.refl _ s)
    split at shifting <;> cases shifting
    rfl
  all_goals exact .refl _ s

theorem moves_opening : ∃ t, execOpening s = .next t ∧ Moves shaped s t := by
  refine ⟨_, rfl, ?_⟩
  split
  · exact .refl _ s
  · split <;> exact .refl _ s

theorem moves_groupEvaluation (g : GroupId) : ∃ t, execGroupEvaluation g s = .next t ∧ Moves shaped s t := by
  refine ⟨_, rfl, ?_⟩
  split
  · exact .refl _ s
  · split
    · simp only
      split
      · exact moves_evaluateGroup (t := s.modifyCurrentWork _) (.refl _ s)
      · exact .refl _ s
    · exact .refl _ s

theorem moves_bundleEvaluation (b : BundleId) : ∃ t, execBundleEvaluation b s = .next t ∧ Moves shaped s t := by
  refine ⟨_, rfl, ?_⟩
  split
  · exact .refl _ s
  · split
    · simp only
      split
      · exact moves_evaluateBundle (t := s.modifyCurrentWork _) (.refl _ s)
      · exact .refl _ s
    · exact .refl _ s

theorem moves_closing : ∃ t, execClosing s = .next t ∧ Moves shaped s t := by
  refine ⟨_, rfl, ?_⟩
  split
  · exact .refl _ s
  · split <;> exact .refl _ s

theorem moves_commitPulseEnd : ∃ t, execCommitPulseEnd s = .next t ∧ Moves shaped s t := by
  refine ⟨_, rfl, ?_⟩
  split <;> exact .refl _ s

theorem moves_patienceStep (g : GroupId) : ∃ t, execPatienceStep g s = .next t ∧ Moves shaped s t := by
  refine ⟨_, rfl, ?_⟩
  split
  · exact .refl _ s
  · simp only
    split
    · exact moves_advancePatience (t := State.dropFinished _) (.refl _ s)
    · exact .refl _ s

theorem moves_ackStep (g : GroupId) : ∃ t, execAckStep g s = .next t ∧ Moves shaped s t := by
  refine ⟨_, rfl, ?_⟩
  split
  · exact .refl _ s
  · simp only
    split
    · exact moves_ageGroup (t := State.dropFinished _) (.refl _ s)
    · exact .refl _ s

theorem moves_fsyncEdge (time : Nat) : ∃ t, execFsyncEdge time s = .next t ∧ Moves shaped s t := by
  refine ⟨_, rfl, ?_⟩
  split
  · exact .refl _ s
  · exact moves_takeEdge (.refl _ s)

theorem moves_internalTimer : ∃ t, execInternalTimer s = .next t ∧ Moves shaped s t := by
  refine ⟨_, rfl, ?_⟩
  split
  · exact moves_produceBoundary (.refl _ s)
  · exact moves_produceBoundary (.refl _ s)
  · exact .refl _ s

theorem moves_windowExpiry : ∃ t, execWindowExpiry s = .next t ∧ Moves shaped s t := by
  refine ⟨_, rfl, ?_⟩
  split
  · unfold expireWindow
    simp only
    split
    · exact moves_produceBoundary (.refl _ s)
    · exact .refl _ s
  · exact .refl _ s

theorem moves_frameLoss : ∃ t, execFrameLoss s = .next t ∧ Moves shaped s t := by
  refine ⟨_, rfl, ?_⟩
  split
  · exact moves_takeFrameLoss (.refl _ s)
  · exact .refl _ s

theorem moves_boundaryTaken : ∃ t, execBoundaryTaken s = .next t ∧ Moves shaped s t := by
  refine ⟨_, rfl, ?_⟩
  split
  · exact moves_takeBoundary (.refl _ s)
  · exact .refl _ s

theorem moves_enterFirst : ∃ t, execEnterFirst s = .next t ∧ Moves shaped s t := by
  refine ⟨_, rfl, ?_⟩
  split <;> exact .refl _ s

theorem moves_enterStopped : ∃ t, execEnterStopped s = .next t ∧ Moves shaped s t := by
  refine ⟨_, rfl, ?_⟩
  split <;> exact .refl _ s

end

/-! ### Every command -/

theorem accepts_readSet_le {L : Nat} (h : Command.readSet.accepts L = true) : L ≤ 8 := by
  simp only [Command.accepts, decide_eq_true_eq] at h
  exact h.2

theorem exec_moves (c : Instr) (s : State) : ∃ t, exec c s = .next t ∧ Moves (EntriesShaped s) s t := by
  match c with
  | .nop p _ => exact ⟨_, rfl, moves_takeCommand fun t _ => .brief (by simp) rfl⟩
  | .status p _ => exact ⟨_, rfl, moves_takeCommand fun t _ => .brief (by simp [statusData]) rfl⟩
  | .join p _ attention => exact ⟨_, rfl, moves_takeCommand fun t _ => answers_joinReply p t attention⟩
  | .leave p _ => exact ⟨_, rfl, moves_takeCommand fun t _ => answers_leaveReply p t⟩
  | .fetch p _ n => exact ⟨_, rfl, moves_takeCommand fun t _ => answers_fetchReply p t n⟩
  | .claimConfig p _ => exact ⟨_, rfl, moves_takeCommand fun t _ => answers_claimReply p t⟩
  | .releaseConfig p _ => exact ⟨_, rfl, moves_takeCommand fun t _ => answers_releaseClaimReply p t⟩
  | .start p _ => exact ⟨_, rfl, moves_takeCommand fun t _ => answers_claimed (by simp) (answers_startBody t)⟩
  | .stop p _ => exact ⟨_, rfl, moves_takeCommand fun t _ => answers_stopReply t⟩
  | .resume p _ => exact ⟨_, rfl, moves_takeCommand fun t _ => answers_resumeReply t⟩
  | .resetDevice p _ =>
    exact ⟨_, rfl, moves_takeCommand fun t _ =>
      answers_claimed (by simp) ⟨moves_deviceReset (.refl _ t), fun _ => by simp⟩⟩
  | .defineEntry p _ index group width writers limits words =>
    exact ⟨_, rfl, moves_takeCommand fun t _ =>
      answers_claimed (by simp) (answers_defineEntryBody group index t width writers limits words)⟩
  | .defineFan p _ index group writers targets =>
    exact ⟨_, rfl, moves_takeCommand fun t _ =>
      answers_claimed (by simp) (answers_defineFanBody group index t writers targets)⟩
  | .deleteEntry p _ index =>
    exact ⟨_, rfl, moves_takeCommand fun t _ => answers_claimed (by simp) (answers_deleteEntryBody index t)⟩
  | .defineGroup p _ group staleLimit ackDeadline patienceLimit =>
    exact ⟨_, rfl, moves_takeCommand fun t _ =>
      answers_claimed (by simp) (answers_defineGroupBody group t staleLimit ackDeadline patienceLimit)⟩
  | .defineBundle p _ bundle members =>
    exact ⟨_, rfl, moves_takeCommand fun t _ => answers_claimed (by simp) (answers_defineBundleBody t bundle members)⟩
  | .setFrame p _ source period =>
    exact ⟨_, rfl, moves_takeCommand fun t _ => answers_claimed (by simp) (answers_setFrameBody t source period)⟩
  | .read p _ index => exact ⟨_, rfl, moves_takeCommand fun t _ => answers_readReply index t⟩
  | .readSet p _ indices =>
    exact ⟨_, rfl, moves_takeCommand fun t accepted => answers_readSetReply t (accepts_readSet_le accepted)⟩
  | .groupStatus p _ group => exact ⟨_, rfl, moves_takeCommand fun t _ => answers_groupStatusReply p group t⟩
  | .lease p _ group => exact ⟨_, rfl, moves_takeCommand fun t _ => answers_leaseReply p group t⟩
  | .release p _ group => exact ⟨_, rfl, moves_takeCommand fun t _ => answers_releaseReply p group t⟩
  | .stage p _ index words => exact ⟨_, rfl, moves_takeCommand fun t _ => answers_stageReply p index t words⟩
  | .unstage p _ index => exact ⟨_, rfl, moves_takeCommand fun t _ => answers_unstageReply p index t⟩
  | .seal p _ group delay marked =>
    exact ⟨_, rfl, moves_takeCommand fun t _ => answers_sealReply p group t delay marked⟩
  | .unseal p _ group => exact ⟨_, rfl, moves_takeCommand fun t _ => answers_unsealReply p group t⟩
  | .readStaged p _ index => exact ⟨_, rfl, moves_takeCommand fun t _ => answers_readStagedReply p index t⟩
  | .subscribe p _ group mode => exact ⟨_, rfl, moves_takeCommand fun t _ => answers_subscribeReply p group t mode⟩
  | .ack p _ group epoch => exact ⟨_, rfl, moves_takeCommand fun t _ => answers_ackReply p group t epoch⟩
  | .badframe p mosi => exact moves_badframe p mosi
  | .pureRead p => exact ⟨_, rfl, moves_endTransaction (.refl _ s)⟩
  | .fsyncEdge time => exact moves_fsyncEdge time
  | .internalTimer => exact moves_internalTimer
  | .windowExpiry => exact moves_windowExpiry
  | .frameLoss => exact moves_frameLoss
  | .boundaryTaken => exact moves_boundaryTaken
  | .enterFirst => exact moves_enterFirst
  | .enterStopped => exact moves_enterStopped
  | .opening => exact moves_opening
  | .groupEvaluation g => exact moves_groupEvaluation g
  | .bundleEvaluation b => exact moves_bundleEvaluation b
  | .closing => exact moves_closing
  | .commitPulseEnd => exact moves_commitPulseEnd
  | .patienceStep g => exact moves_patienceStep g
  | .ackStep g => exact moves_ackStep g
  | .noticeArrival p n => exact ⟨_, rfl, moves_notify (.refl _ s)⟩
  | .resetAssert => exact ⟨_, rfl, moves_of_ports (moves_deviceReset (.refl _ s)) rfl⟩
  | .resetRelease => exact ⟨_, rfl, .refl _ s⟩
  | .powerUp => exact ⟨_, rfl, moves_deviceReset (.refl _ s)⟩
  | .csFalls p => exact moves_csFalls p

/-- Every step takes each port unit through a run of its changes. -/
theorem step_moves {s t : State} (hstep : step s = .next t) : Moves (EntriesShaped s) s t := by
  cases next : s.pending with
  | nil => rw [step_idle next hstep]; exact .refl _ s
  | cons c rest =>
    obtain ⟨u, hu, moves⟩ := exec_moves c { s with pending := rest }
    simp only [step, next] at hstep
    rw [hu] at hstep
    cases hstep
    exact moves

/-! ### The laws of port units -/

/-- A FETCH makes a queue no longer, and what it leaves in the 32nd place was there before (R170, R172). -/
theorem queueBounded_drop {queue : List QueuedNotice} (h : QueueBounded queue) (n : Nat) : QueueBounded (queue.drop n) := by
  obtain ⟨few, last⟩ := h
  refine ⟨by rw [List.length_drop]; omega, fun x hx => ?_⟩
  rw [List.getElem?_drop] at hx
  obtain ⟨inside, -⟩ := List.getElem?_eq_some_iff.mp hx
  obtain rfl : n = 0 := by omega
  exact last x hx

theorem queueBounded_nil : QueueBounded [] := ⟨by simp, by simp⟩

theorem queueBounded_unit {shaped : Prop} (u v : PortUnit) (h : QueueBounded u.queue) (change : UnitChange shaped u v) :
    QueueBounded v.queue := by
  cases change with
  | told n frame => exact enqueue_bounded h n frame
  | fetched n => exact queueBounded_drop h n
  | left | reset => exact queueBounded_nil
  | begun | ended | answered | joined => exact h

/-- A port unit that is OFFLINE is quiet: no notices, attention enable no (R165, R167, R171). -/
def UnitQuiet (u : PortUnit) : Prop := u.session = .offline → u.queue = [] ∧ u.attention = false

theorem offlineQuiet_iff {s : State} : OfflineQuiet s ↔ ∀ p, UnitQuiet (s.portUnit p) := by
  refine forall_congr' fun p => imp_congr_left ⟨session_of_offline, fun offline => ?_⟩
  simp [State.isOnline, offline]

theorem quiet_unit {shaped : Prop} (u v : PortUnit) (h : UnitQuiet u) (change : UnitChange shaped u v) : UnitQuiet v := by
  intro offline
  cases change with
  | told n frame online => rw [online] at offline; cases offline
  | joined => cases offline
  | fetched n =>
    obtain ⟨empty, off⟩ := h offline
    exact ⟨by simp [empty], off⟩
  | left | reset => exact ⟨rfl, rfl⟩
  | begun | ended | answered => exact h offline

/-- The response held, and a response being shifted out, have at most 160 data bytes (R163, R180). -/
def UnitFits (u : PortUnit) : Prop :=
  u.response.data.length ≤ 160 ∧ ∀ r, u.transaction = .shifting r → r.data.length ≤ 160

theorem fits_unit {shaped : Prop} (entries : shaped) (u v : PortUnit) (h : UnitFits u) (change : UnitChange shaped u v) :
    UnitFits v := by
  obtain ⟨held, shifting⟩ := h
  cases change with
  | begun transaction same => exact ⟨held, fun r begun => by rw [same r begun]; exact held⟩
  | ended => exact ⟨held, nofun⟩
  | answered r short => exact ⟨short entries, shifting⟩
  | reset =>
    refine ⟨by simp [resetPort, PortUnit.reset, Response.reset], fun r begun => ?_⟩
    simp only [resetPort] at begun
    split at begun <;> cases begun
  | told | joined | fetched | left => exact ⟨held, shifting⟩

/-- Settles O50: each law speaks of one port unit at a time, and every change of a port unit keeps it. -/
theorem stepKeepsPortBuffersBounded : Obligations.StepKeepsPortBuffersBounded := by
  refine ⟨fun s t bounded hstep => ?_, fun s t quiet hstep => ?_, fun s t store fits hstep => ?_⟩
  · exact unit_law (P := fun u => QueueBounded u.queue) queueBounded_unit bounded (step_moves hstep)
  · exact offlineQuiet_iff.mpr (unit_law quiet_unit (offlineQuiet_iff.mp quiet) (step_moves hstep))
  · exact unit_law (P := UnitFits) (fits_unit store.2) fits (step_moves hstep)

end Sys2Proof.Proofs
end

section
namespace Sys2Proof.Proofs

open Sys2Proof Sys2Proof.Machine

/-! ## Frames as bytes (R159 to R161, R176 to R179) -/

/-! ### The CRC-8 (R177) -/

theorem crcBit_eq (register : Byte) (bit : Bool) :
    crcBit register bit =
      if register.getLsbD 7 = bit then register + register else (register + register) ^^^ 0x2F#8 := by
  have doubled : register <<< 1 = register + register := by bv_omega
  rw [crcBit, doubled]
  rfl

theorem crc8_append (bytes : List Byte) (b : Byte) : crc8 (bytes ++ [b]) = crcByte (crc8 bytes) b := by
  rw [crc8, List.foldl_append]
  rfl

/-- A data bit 0 never clears the register: what is shifted out of the top comes back as 2Fh (R177). -/
theorem crcBit_false_ne_zero {register : Byte} (h : register ≠ 0#8) : crcBit register false ≠ 0#8 := by
  revert register
  decide

theorem crcByte_zero_ne_zero {register : Byte} (h : register ≠ 0#8) : crcByte register 0#8 ≠ 0#8 := by
  have bits : crcByte register 0#8 = [7, 6, 5, 4, 3, 2, 1, 0].foldl (fun r (_ : Nat) => crcBit r false) register := by
    simp [crcByte]
  rw [bits]
  exact List.foldlRecOn (motive := (· ≠ 0#8)) _ _ h fun _ hr _ _ => crcBit_false_ne_zero hr

theorem crc8_fill_ne_zero (n : Nat) : crc8 (List.replicate n 0#8) ≠ 0#8 := by
  induction n with
  | zero => decide
  | succ n ih =>
    rw [List.replicate_succ', crc8_append]
    exact crcByte_zero_ne_zero ih

/-! ### Words and half words, most significant byte first (R176) -/

theorem wordOfBytes_wordBytes (w : Word) :
    wordOfBytes (w.extractLsb' 24 8) (w.extractLsb' 16 8) (w.extractLsb' 8 8) (w.extractLsb' 0 8) = w := by
  rw [wordOfBytes, BitVec.extractLsb'_append_extractLsb'_eq_extractLsb' (show 24 = 16 + 8 from rfl),
    BitVec.extractLsb'_append_extractLsb'_eq_extractLsb' (show 16 = 8 + 8 from rfl),
    BitVec.extractLsb'_append_extractLsb'_eq_extractLsb' (show 8 = 0 + 8 from rfl)]
  exact BitVec.extractLsb'_eq_self

theorem halfOfBytes_halfBytes (h : Half) : halfOfBytes (h.extractLsb' 8 8) (h.extractLsb' 0 8) = h := by
  rw [halfOfBytes, BitVec.extractLsb'_append_extractLsb'_eq_extractLsb' (show 8 = 0 + 8 from rfl)]
  exact BitVec.extractLsb'_eq_self

theorem wordsOfBytes_wordsBytes (words : List Word) : wordsOfBytes (wordsBytes words) = some words := by
  induction words with
  | nil => rfl
  | cons w rest ih => simp [wordsBytes, wordBytes, wordsOfBytes, ih, wordOfBytes_wordBytes]

/-! ### Codes and argument lengths (R178) -/

theorem mem_allCommands (c : Command) : c ∈ allCommands := by
  cases c <;> decide

theorem commandOfCode_code (c : Command) : commandOfCode c.code = some c := by
  cases c <;> rfl

theorem commandOfCode_eq_none {code : Byte} (other : ∀ c : Command, c.code ≠ code) : commandOfCode code = none := by
  simp [commandOfCode, List.find?_eq_none, other]

/-- The last column of R178. -/
def acceptedLengths : Command → List Nat
  | .nop | .status | .leave | .claimConfig | .releaseConfig | .start | .stop | .resume | .resetDevice => [0]
  | .join | .fetch | .deleteEntry | .read | .groupStatus | .lease | .release | .unstage | .unseal | .readStaged => [1]
  | .subscribe => [2]
  | .seal | .ack => [3]
  | .defineGroup => [4]
  | .setFrame => [5]
  | .defineEntry => [9, 13, 17, 21, 25, 29]
  | .defineFan => [3, 4, 5, 6, 7]
  | .defineBundle => [1, 2, 3, 4, 5, 6, 7, 8, 9, 10, 11, 12, 13, 14, 15, 16, 17]
  | .readSet => [1, 2, 3, 4, 5, 6, 7, 8]
  | .stage => [5, 9, 13, 17]

theorem accepts_iff (c : Command) (L : Nat) : c.accepts L = true ↔ L ∈ acceptedLengths c := by
  cases c
  case defineFan | defineBundle | readSet =>
    simp only [Command.accepts, acceptedLengths, decide_eq_true_eq, List.mem_cons, List.not_mem_nil, or_false]
    omega
  -- The other commands have one length, or a list of them.
  all_goals simp [Command.accepts, acceptedLengths]

/-! ### A frame read back -/

theorem frameBytes_fill (fill : Nat) : frameBytes (List.replicate fill 0#8) = [] := by
  simp [frameBytes]

/-- The frame begins at the first byte that is not 00h (R159). -/
theorem frameBytes_fill_append (fill : Nat) {code : Byte} (rest : List Byte) (h : code ≠ 0#8) :
    frameBytes (List.replicate fill 0#8 ++ code :: rest) = code :: rest := by
  rw [frameBytes, List.dropWhile_append_of_pos (by simp)]
  simp [h]

theorem code_ne_zero (c : Command) : c.code ≠ 0#8 := by
  cases c <;> decide

/-- A frame with its own CRC and an argument length that R178 lists passes the seven checks, whatever follows it (R160,
R161). -/
theorem checkFrame_frame {c : Command} {tag : Byte} {args after : List Byte} {online : Bool}
    (listed : c.accepts args.length = true) (short : args.length ≤ 64) (able : online = true ∨ c.openToOffline = true) :
    checkFrame online (buildFrame c tag args ++ after) = .accepted ⟨c, tag, args⟩ := by
  have length : (BitVec.ofNat 8 args.length).toNat = args.length := by
    rw [BitVec.toNat_ofNat, Nat.mod_eq_of_lt (by omega)]
  have passes : (!online && !c.openToOffline) = false := by
    rcases able with h | h <;> simp [h]
  have split : buildFrame c tag args ++ after =
      c.code :: tag :: BitVec.ofNat 8 args.length ::
        (args ++ crc8 (c.code :: tag :: BitVec.ofNat 8 args.length :: args) :: after) := by
    simp [buildFrame]
  rw [split, checkFrame]
  simp only [length, List.take_left, List.getD_append_right _ _ _ _ le_rfl]
  rw [if_neg (by simpa [Config.maxArgumentLength] using short), if_neg (by simp), if_neg (by simp)]
  simp [checkCommand, commandOfCode_code, passes, listed]

/-- The arguments of a command, read in the layout of R178, give the command back (R179). -/
theorem decodeArgs_of_parts {i : Instr} {p : Port} {c : Command} {tag : Byte} {args : List Byte}
    (parts : i.parts = some (p, c, tag, args)) : decodeArgs p ⟨c, tag, args⟩ = some i := by
  cases i <;> cases parts
  case defineEntry => simp [decodeArgs, wordsOfBytes_wordsBytes]
  case stage => simp [decodeArgs, wordsOfBytes_wordsBytes]
  case setFrame => simp [decodeArgs, wordBytes, wordOfBytes_wordBytes]
  case ack => simp [decodeArgs, halfBytes, halfOfBytes_halfBytes]
  -- The arguments of the other commands are bytes.
  all_goals rfl

/-- A well-formed command of a port has an argument length that checks 2 and 7 of R161 let pass. -/
theorem accepts_of_parts {i : Instr} {p : Port} {c : Command} {tag : Byte} {args : List Byte} (wf : i.wf = true)
    (parts : i.parts = some (p, c, tag, args)) : c.accepts args.length = true ∧ args.length ≤ 64 := by
  cases i <;> cases parts
  case defineEntry => exact Laws.ArgumentLength.defineEntry _ _ _ _ _ _ _ _ wf _ _ _ _ rfl
  case defineFan => exact Laws.ArgumentLength.defineFan _ _ _ _ _ _ wf _ _ _ _ rfl
  case defineBundle => exact Laws.ArgumentLength.defineBundle _ _ _ _ wf _ _ _ _ rfl
  case readSet => exact Laws.ArgumentLength.readSet _ _ _ wf _ _ _ _ rfl
  case stage => exact Laws.ArgumentLength.stage _ _ _ _ wf _ _ _ _ rfl
  -- The other commands have arguments of a fixed length.
  all_goals exact ⟨rfl, Nat.le_of_ble_eq_true rfl⟩

theorem decodeFrame_encodeFrame {i : Instr} {p : Port} {c : Command} {tag : Byte} {args frame : List Byte} {online : Bool}
    (wf : i.wf = true) (parts : i.parts = some (p, c, tag, args)) (encoded : encodeFrame i = some frame)
    (able : online = true ∨ c.openToOffline = true) (fill : Nat) (after : List Byte) :
    decodeFrame p online (List.replicate fill 0#8 ++ frame ++ after) = some i := by
  obtain ⟨listed, short⟩ := accepts_of_parts wf parts
  obtain rfl : buildFrame c tag args = frame := by simpa [encodeFrame, parts] using encoded
  have begins : frameBytes (List.replicate fill 0#8 ++ buildFrame c tag args ++ after) = buildFrame c tag args ++ after := by
    rw [List.append_assoc]
    exact frameBytes_fill_append fill _ (code_ne_zero c)
  rw [decodeFrame, begins, checkFrame_frame listed short able]
  exact decodeArgs_of_parts parts

/-- Settles O5: the frame passes the seven checks and its arguments are read back; the CRC-8 bit by bit; the table of R178 as
that of all commands. -/
theorem framesReadBackAsTheirCommands : Obligations.FramesReadBackAsTheirCommands := by
  refine ⟨fun i p c tag args frame after online fill wf parts encoded able => ?_,
    ⟨rfl, fun bytes b => ?_, crc8_fill_ne_zero⟩, ?_⟩
  · exact decodeFrame_encodeFrame wf parts encoded (able.imp_right openToOffline_iff.mpr) fill after
  · simp only [crc8_append, crcByte, List.foldl_cons, List.foldl_nil, crcBit_eq]
  · intro table
    have rows : table = allCommands.map fun c => (c, c.code, acceptedLengths c) := rfl
    clear_value table
    subst rows
    refine ⟨fun c => ⟨_, List.mem_map_of_mem (mem_allCommands c), rfl⟩, ?_, fun code other => ?_⟩
    · rw [List.forall_mem_map]
      exact fun c _ => ⟨rfl, commandOfCode_code c, accepts_iff c⟩
    · rw [List.forall_mem_map] at other
      exact commandOfCode_eq_none fun c => other c (mem_allCommands c)

/-! ## Frames that the port unit refuses (R161, R162) -/

theorem exec_badframe_empty {p : Port} {mosi : List Byte} {s : State} (hears : Hears s p) (empty : frameBytes mosi = []) :
    exec (.badframe p mosi) s = .next (transactionOver p s) := by
  change execBadframe p mosi s = _
  simp only [execBadframe, transactionLost_of_hears hears, empty, Bool.false_eq_true, if_false, if_true, endTransaction_eq]

section
variable {p : Port} {mosi rest : List Byte} {code tag len : Byte} {s : State}

theorem exec_badframe_rejected {cause : RejectCause} (hears : Hears s p) (bytes : frameBytes mosi = code :: rest)
    (checks : checkFrame (s.isOnline p) (code :: rest) = .rejected tag cause) :
    exec (.badframe p mosi) s =
      .next (answered p tag (rejection s tag cause).status (rejection s tag cause).data s) := by
  have refusal : rejection s tag cause = ⟨tag, (rejection s tag cause).status, (rejection s tag cause).data⟩ := by
    cases cause <;> rfl
  rw [← respond_endTransaction, ← refusal]
  change execBadframe p mosi s = _
  simp [execBadframe, transactionLost_of_hears hears, bytes, checks]

theorem exec_badframe_accepted {f : Frame} (hears : Hears s p) (bytes : frameBytes mosi = code :: rest)
    (checks : checkFrame (s.isOnline p) (code :: rest) = .accepted f) : exec (.badframe p mosi) s = .next s := by
  change execBadframe p mosi s = _
  simp [execBadframe, transactionLost_of_hears hears, bytes, checks]

/-! ### The checks of R161, one by one -/

variable {online : Bool}

theorem checkFrame_length (long : 64 < len.toNat) :
    checkFrame online (code :: tag :: len :: rest) = .rejected tag (.badFrame .length (3 + rest.length)) := by
  rw [checkFrame, Nat.add_comm 3]
  exact if_pos long

theorem checkFrame_short (fits : ¬ 64 < len.toNat) (short : rest.length < len.toNat + 1) :
    checkFrame online (code :: tag :: len :: rest) = .rejected tag (.badFrame .short (3 + rest.length)) := by
  rw [checkFrame, Nat.add_comm 3]
  exact (if_neg fits).trans (if_pos short)

/-- With the whole frame received, the byte that check 4 looks at is there (R161). -/
theorem getD_eq_iff (whole : ¬ rest.length < len.toNat + 1) (crc : Byte) :
    rest.getD len.toNat 0#8 = crc ↔ rest[len.toNat]? = some crc := by
  simp [List.getElem?_eq_getElem (show len.toNat < rest.length by omega)]

theorem checkFrame_crc (fits : ¬ 64 < len.toNat) (whole : ¬ rest.length < len.toNat + 1)
    (other : rest[len.toNat]? ≠ some (crc8 (code :: tag :: len :: rest.take len.toNat))) :
    checkFrame online (code :: tag :: len :: rest) = .rejected tag (.badFrame .crc (3 + rest.length)) := by
  rw [checkFrame, Nat.add_comm 3]
  exact (if_neg fits).trans ((if_neg whole).trans (if_pos fun same => other ((getD_eq_iff whole _).mp same.symm)))

theorem checkFrame_command (fits : ¬ 64 < len.toNat) (whole : ¬ rest.length < len.toNat + 1)
    (same : rest[len.toNat]? = some (crc8 (code :: tag :: len :: rest.take len.toNat))) :
    checkFrame online (code :: tag :: len :: rest) = checkCommand online code tag (rest.take len.toNat) := by
  rw [checkFrame]
  exact (if_neg fits).trans ((if_neg whole).trans (if_neg (not_not.mpr ((getD_eq_iff whole _).mpr same).symm)))

theorem checkCommand_unknown {args : List Byte} (unknown : commandOfCode code = none) :
    checkCommand online code tag args = .rejected tag (.unknown code) := by
  simp [checkCommand, unknown]

section
variable {args : List Byte} {c : Command} (known : commandOfCode code = some c)
include known

theorem checkCommand_offline (closed : online = false ∧ ¬ (c = .join ∨ c = .status ∨ c = .nop)) :
    checkCommand online code tag args = .rejected tag (.offline c) := by
  obtain ⟨offline, other⟩ := closed
  simp [checkCommand, known, offline, Bool.eq_false_iff.mpr (mt openToOffline_iff.mp other)]

/-- Past check 6 the argument length decides (R161 check 7). -/
theorem checkCommand_able (able : ¬ (online = false ∧ ¬ (c = .join ∨ c = .status ∨ c = .nop))) :
    checkCommand online code tag args =
      if c.accepts args.length = true then .accepted ⟨c, tag, args⟩ else .rejected tag (.argument c) := by
  have passes : (!online && !c.openToOffline) = false := by
    rw [← openToOffline_iff] at able
    simpa [Classical.or_iff_not_imp_left] using able
  cases listed : c.accepts args.length <;> simp [checkCommand, known, passes, listed]

end

/-- The number of frame bytes received, as a BADFRAME response gives it: 255 stands for 255 and more (R162). -/
theorem countByte_received (n : Nat) : countByte (min (3 + n) 255) = if 252 ≤ n then 255#8 else BitVec.ofNat 8 (3 + n) := by
  split
  · rw [Nat.min_eq_right (by omega)]
    rfl
  · rw [Nat.min_eq_left (by omega)]
    rfl

end

/-- Settles O7, along the seven checks of `checkFrame` and `checkCommand`. -/
theorem badFramesAnsweredCheckByCheck : Obligations.BadFramesAnsweredCheckByCheck := by
  refine ⟨fun fill => ⟨frameBytes_fill fill, fun code rest => frameBytes_fill_append fill rest⟩,
    fun p mosi s hears => ⟨exec_badframe_empty hears, fun code bytes => exec_badframe_rejected hears bytes rfl,
      fun code tag bytes => exec_badframe_rejected hears bytes rfl, fun code tag len rest bytes => ?_⟩⟩
  have bad {reason : BadFrameReason}
      (checks : checkFrame (s.isOnline p) (code :: tag :: len :: rest) = .rejected tag (.badFrame reason (3 + rest.length))) :
      exec (.badframe p mosi) s = .next (answered p tag .badFrame
        [badFrameCode reason, if 252 ≤ rest.length then 255#8 else BitVec.ofNat 8 (3 + rest.length)] s) := by
    have h := exec_badframe_rejected hears bytes checks
    simp only [rejection, countByte_received] at h
    exact h
  dsimp only
  split
  · next long => exact bad (checkFrame_length long)
  next fits =>
  split
  · next short => exact bad (checkFrame_short fits short)
  next whole =>
  split
  · next other => exact bad (checkFrame_crc fits whole other)
  next same =>
  have checks := checkFrame_command (online := s.isOnline p) fits whole (not_not.mp same)
  have taken : (rest.take len.toNat).length = len.toNat := by rw [List.length_take]; omega
  split
  · next unknown => exact exec_badframe_rejected hears bytes (checks.trans (checkCommand_unknown unknown))
  next c known =>
  rw [← portRefusalData_eq]
  split
  · next closed => exact exec_badframe_rejected hears bytes (checks.trans (checkCommand_offline known closed))
  next able =>
  rw [checkCommand_able known able, taken] at checks
  split
  · next unlisted => exact exec_badframe_rejected hears bytes (checks.trans (if_neg (by simp [unlisted])))
  · next listed => exact exec_badframe_accepted hears bytes (checks.trans (if_pos (by simpa using listed)))

end Sys2Proof.Proofs
end

section
namespace Sys2Proof.Proofs

open Sys2Proof Sys2Proof.Machine

/-! ## NOP, STATUS and JOIN: taken at OFFLINE ports too (R165, R166, R175) -/

/-- A command that an OFFLINE port takes as well, and whose block answers with some state (R166). -/
theorem takeCommand_open_answered {p : Port} {c : Command} {tag : Byte} {L : Nat} {body : State → Reply} {s t : State}
    {status : Status} {data : List Byte} (hears : Hears s p) (always : c.openToOffline = true) (accepted : c.accepts L = true)
    (h : body (s.endTransaction p) = answer (t.endTransaction p) status data) :
    Host.Outcome.next (φ := Fault) (ρ := Refusal) (takeCommand p c tag L body s) = .next (answered p tag status data t) := by
  rw [takeCommand_taken (transactionLost_of_hears hears) (.inr always) accepted, h]
  exact congrArg _ (respond_endTransaction t p tag status data)

theorem sessionCode_eq (s : State) (p : Port) :
    sessionCode (s.portUnit p).session = if s.isOnline p then 0x01#8 else 0x00#8 := by
  cases session : (s.portUnit p).session <;> simp [State.isOnline, session, sessionCode]

/-- The end of the transaction shows in no item of STATUS (R183). -/
theorem statusData_endTransaction (p : Port) (s : State) : statusData p (s.endTransaction p) = statusData p s := by
  simp [statusData, portUnit_endTransaction]

/-- Settles O9: both are `takeCommand` with an answer from the state as it is. -/
theorem nopAndStatusAnsweredInEveryState : Obligations.NopAndStatusAnsweredInEveryState := by
  intro p tag s hears
  refine ⟨takeCommand_open_answered hears rfl rfl rfl, ?_⟩
  rw [← sessionCode_eq]
  exact takeCommand_open_answered hears rfl rfl (congrArg (answer _ .ok) (statusData_endTransaction p s))

theorem joinReply_offline {p : Port} {s : State} (offline : s.isOnline p = false) (attention : Bool) :
    joinReply p (flagByte attention) s =
      answer (s.setPort p
          { s.portUnit p with
            session := .online, sessionNumber := nextSession (s.portUnit p).sessionNumber, attention := attention })
        .ok [nextSession (s.portUnit p).sessionNumber, flagByte attention] := by
  simp only [joinReply, flagOf_flagByte, session_of_offline offline]

theorem joinReply_online {p : Port} {s : State} (online : s.isOnline p = true) (attention : Bool) :
    joinReply p (flagByte attention) s =
      answer s .already [(s.portUnit p).sessionNumber, flagByte (s.portUnit p).attention] := by
  simp only [joinReply, flagOf_flagByte, session_eq_online.mpr online]

theorem joinReply_badFlag {p : Port} {b : Byte} (no : b ≠ 0x00#8) (yes : b ≠ 0x01#8) (s : State) :
    joinReply p b s = answer s .argument [] := by
  simp [joinReply, flagOf, no, yes]

/-- Settles O10, by the session and the flag. -/
theorem joinOpensSession : Obligations.JoinOpensSession := by
  intro p tag s hears
  have joins {attention : Byte} {t : State} {status : Status} {data : List Byte}
      (h : joinReply p attention (s.endTransaction p) = answer (t.endTransaction p) status data) :
      exec (.join p tag attention) s = .next (answered p tag status data t) := takeCommand_open_answered hears rfl rfl h
  have kept := isOnline_endTransaction s p p
  refine ⟨fun attention offline => joins ?_, fun attention online => joins ?_,
    fun b no yes => joins (joinReply_badFlag no yes _)⟩
  · rw [joinReply_offline (kept.trans offline)]
    simp [State.endTransaction, nextSession]
  · rw [joinReply_online (kept.trans online)]
    simp [portUnit_endTransaction]

/-! ## FETCH (R172, R184) -/

theorem fetchReply_taken {p : Port} {n : Byte} {s : State} {taken kept : List QueuedNotice}
    (range : 1 ≤ n.toNat ∧ n.toNat ≤ 4)
    (split : (s.portUnit p).queue = taken ++ kept) (number : taken.length = min n.toNat (s.portUnit p).queue.length) :
    fetchReply p n s = answer (s.setPort p { s.portUnit p with queue := kept }) .ok
      ([BitVec.ofNat 8 taken.length, BitVec.ofNat 8 kept.length] ++ taken.flatMap queuedRecord) := by
  have oldest : (s.portUnit p).queue.take n.toNat = taken := by
    rw [List.take_eq_take_min, ← number, split, List.take_left]
  have rest : (s.portUnit p).queue.drop n.toNat = kept := by
    rw [← List.append_cancel_left_eq taken, ← split, ← oldest, List.take_append_drop]
  rw [fetchReply, if_neg (by omega)]
  simp only [oldest, rest, countByte]

theorem fetchReply_argument {p : Port} {n : Byte} {s : State} (outside : ¬ (1 ≤ n.toNat ∧ n.toNat ≤ 4)) :
    fetchReply p n s = answer s .argument [] :=
  if_pos (by omega)

/-- Settles O12: the queue splits at the notices taken; a record is 8 bytes by its kind. -/
theorem fetchTakesOldestNotices : Obligations.FetchTakesOldestNotices := by
  refine ⟨fun p tag n s taken => ?_, fun g epoch frame a b count new old => ?_⟩
  · have fetches {t : State} {status : Status} {data : List Byte}
        (h : fetchReply p n (s.endTransaction p) = answer (t.endTransaction p) status data) :
        exec (.fetch p tag n) s = .next (answered p tag status data t) := takeCommand_answered taken rfl h
    refine ⟨fun range oldest kept split number => ⟨_, fetches ?_, rfl, fun empty => ?_⟩,
      fun outside => fetches (fetchReply_argument outside)⟩
    · have queue : ((s.endTransaction p).portUnit p).queue = (s.portUnit p).queue := by simp [portUnit_endTransaction]
      rw [fetchReply_taken range (queue.trans split) (by rw [queue]; exact number)]
      simp [State.endTransaction]
    · simp [answered, PortUnit.attn, empty]
  · refine ⟨rfl, rfl, rfl, rfl, rfl, rfl, rfl, rfl, rfl, rfl, rfl, rfl, ?_, rfl⟩
    cases new <;> cases old <;> rfl

end Sys2Proof.Proofs
end

section
namespace Sys2Proof.Proofs

open Sys2Proof Sys2Proof.Machine

/-! ## One step and the queue (log entry 1) -/

theorem step_eq_exec {c : Instr} {rest : List Instr} {s : State} (front : s.pending = c :: rest) :
    step s = exec c { s with pending := rest } := by
  rw [step, front]

theorem step_eq_self {s : State} (idle : s.pending = []) : step s = .next s := by
  rw [step, idle]

/-- Settles O1, by the two cases of the queue. -/
theorem stepTakesFrontCommand : Obligations.StepTakesFrontCommand :=
  ⟨fun _ _ _ => step_eq_exec rfl, fun _ => step_eq_self rfl⟩

end Sys2Proof.Proofs
end

section
namespace Sys2Proof.Proofs

open Sys2Proof Sys2Proof.Machine

/-! ## LEAVE (R37, R53, R118, R167) -/

/-! ### One group left -/

/-- A group record once a port has left the group: out of its queue and its outstanding set, unsubscribed, and with its
lease passed on and its STAGING set discarded (R37, R53, R118). -/
def leftRecord (p : Port) (r : Group) : Group :=
  let held : Bool := r.lessee == some p
  let waiting := r.waitQueue.filter (· != p)
  let kept : Group := if held ∧ r.state = .staging then { clearSealed r with state := .idle } else r
  { kept with
    lessee := if held then waiting.head? else r.lessee
    waitQueue := if held then waiting.tail else waiting
    patience := if held then 0#8 else r.patience
    outstanding := r.outstanding.set p false
    subscriptions := r.subscriptions.set p .none }

/-- Whether a port inherits the lease of a group that another port leaves: it heads the queue (R45). -/
def inherits (p q : Port) (r : Group) : Bool := r.lessee == some p && (r.waitQueue.filter (· != p)).head? == some q

/-- Whether the set of a group is discarded when a port leaves it (R53). -/
def losesSet (p : Port) (r : Group) : Bool := r.lessee == some p && r.state == .staging

theorem group_giveUpLease (g h : GroupId) (event : FreeingEvent) (s : State) :
    (giveUpLease g event s).group h =
      if g = h then
        { (if (s.group g).state = .staging then { clearSealed (s.group g) with state := .idle } else s.group g) with
          lessee := (s.group g).waitQueue.head?
          waitQueue := (s.group g).waitQueue.tail
          patience := 0#8 }
      else s.group h := by
  rw [giveUpLease, group_freeLease]
  by_cases staging : (s.group g).state = .staging
  · simp only [if_pos staging, group_discardSet]
    split <;> rfl
  · simp only [if_neg staging]

theorem entry_giveUpLease (g : GroupId) (event : FreeingEvent) (s : State) (i : Byte) :
    (giveUpLease g event s).entry i =
      if (s.group g).state = .staging then discardEntry g (s.entry i) else s.entry i := by
  rw [giveUpLease, freeLease_entry]
  split
  · rw [entry_discardSet]
  · rfl

theorem portUnit_freeLease (g : GroupId) (event : FreeingEvent) (s : State) (q : Port) :
    (freeLease g event s).portUnit q =
      if (s.group g).waitQueue.head? = some q ∧ (s.portUnit q).session = .online then
        { s.portUnit q with
          queue := enqueue (s.portUnit q).queue (.leaseGranted g event) s.timing.frameNumber }
      else s.portUnit q := by
  cases queue : (s.group g).waitQueue with
  | nil => rw [freeLease_nil queue]; rfl
  | cons next rest =>
    rw [freeLease_cons queue, portUnit_notify]
    by_cases here : next = q
    · subst here; simp
    · simp [here]

theorem giveUpLease_frame (g : GroupId) (event : FreeingEvent) (s : State) :
    giveUpLease g event s =
      { s with
        entries := (giveUpLease g event s).entries
        groups := (giveUpLease g event s).groups
        ports := (giveUpLease g event s).ports } := by
  unfold giveUpLease
  rw [freeLease_eq]
  split <;> rfl

theorem portUnit_giveUpLease (g : GroupId) (event : FreeingEvent) (s : State) (q : Port) :
    (giveUpLease g event s).portUnit q =
      if (s.group g).waitQueue.head? = some q ∧ (s.portUnit q).session = .online then
        { s.portUnit q with
          queue := enqueue (s.portUnit q).queue (.leaseGranted g event) s.timing.frameNumber }
      else s.portUnit q := by
  rw [giveUpLease, portUnit_freeLease]
  split
  · rw [group_discardSet, if_pos rfl]; rfl
  · rfl

/-- A group with a port taken out of its queue (R53). -/
def unqueued (p : Port) (g : GroupId) (s : State) : State :=
  s.modifyGroup g fun r => { r with waitQueue := r.waitQueue.filter (· != p) }

/-- A record with a port out of the outstanding set and unsubscribed (R37, R118). -/
def unsubscribed (p : Port) (r : Group) : Group :=
  { r with outstanding := r.outstanding.set p false, subscriptions := r.subscriptions.set p .none }

theorem group_unqueued (p : Port) (g : GroupId) (s : State) :
    (unqueued p g s).group g = { s.group g with waitQueue := (s.group g).waitQueue.filter (· != p) } :=
  group_modifyGroup_self _ _ _

/-- LEAVE in one group, stage by stage (R37, R53, R118). -/
theorem leaveGroup_stages (p : Port) (s : State) (g : GroupId) :
    leaveGroup p s g =
      (if ((unqueued p g s).group g).lessee = some p then giveUpLease g .leave (unqueued p g s)
        else unqueued p g s).modifyGroup g (unsubscribed p) := rfl

theorem leaveGroup_of_lessee {p : Port} {g : GroupId} {s : State} (held : (s.group g).lessee = some p) :
    leaveGroup p s g = (giveUpLease g .leave (unqueued p g s)).modifyGroup g (unsubscribed p) := by
  rw [leaveGroup_stages, if_pos (by rw [group_unqueued]; exact held)]

theorem leaveGroup_of_other {p : Port} {g : GroupId} {s : State} (other : (s.group g).lessee ≠ some p) :
    leaveGroup p s g = (unqueued p g s).modifyGroup g (unsubscribed p) := by
  rw [leaveGroup_stages, if_neg (by rw [group_unqueued]; exact other)]

theorem group_leaveGroup (p : Port) (s : State) (g h : GroupId) :
    (leaveGroup p s g).group h = if g = h then leftRecord p (s.group g) else s.group h := by
  have apart : g ≠ h → (unqueued p g s).group h = s.group h := fun ne => by
    rw [unqueued, group_modifyGroup, if_neg ne]
  by_cases held : (s.group g).lessee = some p
  · rw [leaveGroup_of_lessee held, group_modifyGroup, group_giveUpLease, if_pos rfl, group_giveUpLease]
    split
    · rw [group_unqueued]
      simp only [leftRecord, unsubscribed, held, beq_self_eq_true, true_and, if_true]
      split <;> rfl
    · next ne => exact apart ne
  · rw [leaveGroup_of_other held, group_modifyGroup]
    split
    · rw [group_unqueued]
      simp [leftRecord, unsubscribed, held]
    · next ne => exact apart ne

/-- A group left: a VALUE entry loses its staged value if the set of its group is discarded (R21, R53). -/
theorem entry_leaveGroup (p : Port) (s : State) (g : GroupId) (i : Byte) :
    (leaveGroup p s g).entry i =
      match s.entry i with
      | some (.value v) =>
        some (.value (if v.group = g ∧ losesSet p (s.group g) = true then { v with staged := none } else v))
      | e => e := by
  have discarded : (leaveGroup p s g).entry i =
      if losesSet p (s.group g) = true then discardEntry g (s.entry i) else s.entry i := by
    by_cases held : (s.group g).lessee = some p
    · rw [leaveGroup_of_lessee held, modifyGroup_entry, entry_giveUpLease, group_unqueued]
      simp only [losesSet, held, beq_self_eq_true, Bool.true_and, beq_iff_eq]
      rfl
    · rw [leaveGroup_of_other held, if_neg (by simp [losesSet, held])]
      rfl
  rw [discarded]
  match s.entry i with
  | none => rw [discardEntry_none, ite_self]
  | some (.fan f) => rw [discardEntry_fan, ite_self]
  | some (.value v) =>
    rw [discardEntry_value]
    by_cases loses : losesSet p (s.group g) = true
    · by_cases own : v.group = g <;> simp [loses, own]
    · simp [loses]

theorem portUnit_leaveGroup (p : Port) (s : State) (g : GroupId) (q : Port) :
    (leaveGroup p s g).portUnit q =
      if inherits p q (s.group g) = true ∧ s.isOnline q = true then
        { s.portUnit q with
          queue := enqueue (s.portUnit q).queue (.leaseGranted g .leave) s.timing.frameNumber }
      else s.portUnit q := by
  by_cases held : (s.group g).lessee = some p
  · rw [leaveGroup_of_lessee held, modifyGroup_portUnit, portUnit_giveUpLease, group_unqueued]
    simp only [inherits, held, beq_self_eq_true, Bool.true_and, beq_iff_eq, ← session_eq_online]
    rfl
  · rw [leaveGroup_of_other held, if_neg (by simp [inherits, held])]
    rfl

/-- A group left changes the entries, the groups and the port queues, and nothing else. -/
theorem leaveGroup_frame (p : Port) (s : State) (g : GroupId) :
    leaveGroup p s g =
      { s with
        entries := (leaveGroup p s g).entries, groups := (leaveGroup p s g).groups, ports := (leaveGroup p s g).ports } := by
  by_cases held : (s.group g).lessee = some p
  · rw [leaveGroup_of_lessee held, giveUpLease_frame]
    rfl
  · rw [leaveGroup_of_other held]
    rfl

/-! ### Every group left -/

theorem foldl_leaveGroup_frame (p : Port) (gs : List GroupId) (s : State) :
    gs.foldl (leaveGroup p) s =
      { s with
        entries := (gs.foldl (leaveGroup p) s).entries
        groups := (gs.foldl (leaveGroup p) s).groups
        ports := (gs.foldl (leaveGroup p) s).ports } := by
  induction gs generalizing s with
  | nil => rfl
  | cons g rest ih => rw [List.foldl_cons, ih, leaveGroup_frame]

theorem entry_foldl_leaveGroup (p : Port) {gs : List GroupId} (nodup : gs.Nodup) (s : State) (i : Byte) :
    (gs.foldl (leaveGroup p) s).entry i =
      match s.entry i with
      | some (.value v) =>
        some (.value (if v.group ∈ gs ∧ losesSet p (s.group v.group) = true then { v with staged := none } else v))
      | e => e := by
  induction gs generalizing s with
  | nil => 
    match s.entry i with
    | none | some (.fan _) | some (.value _) => simp
  | cons g rest ih =>
    obtain ⟨apart, nodup⟩ := List.nodup_cons.mp nodup
    rw [List.foldl_cons, ih nodup, entry_leaveGroup]
    match s.entry i with
    | none | some (.fan _) => rfl
    | some (.value v) =>
      dsimp only
      by_cases own : v.group = g
      · subst own
        by_cases loses : losesSet p (s.group v.group) = true <;> simp [apart, loses]
      · simp [own, group_leaveGroup, Ne.symm own]

/-- A port's queue after some groups are left: the leases that it inherits are told of in the order of the groups (R45). -/
theorem portUnit_foldl_leaveGroup (p : Port) {gs : List GroupId} (nodup : gs.Nodup) (s : State) (q : Port) :
    (gs.foldl (leaveGroup p) s).portUnit q =
      { s.portUnit q with
        queue :=
          if s.isOnline q then
            (gs.filter fun g => inherits p q (s.group g)).foldl
              (fun queue g => enqueue queue (.leaseGranted g .leave) s.timing.frameNumber) (s.portUnit q).queue
          else (s.portUnit q).queue } := by
  induction gs generalizing s with
  | nil => simp
  | cons g rest ih =>
    obtain ⟨apart, nodup⟩ := List.nodup_cons.mp nodup
    have others : rest.filter (fun h => inherits p q ((leaveGroup p s g).group h)) =
        rest.filter fun h => inherits p q (s.group h) :=
      List.filter_congr fun h member => by
        rw [group_leaveGroup, if_neg fun same : g = h => apart (same ▸ member)]
    have online : (leaveGroup p s g).isOnline q = s.isOnline q := by
      rw [State.isOnline, portUnit_leaveGroup]
      split <;> rfl
    have timing : (leaveGroup p s g).timing = s.timing := by rw [leaveGroup_frame]
    rw [List.foldl_cons, ih nodup, others, online, timing, portUnit_leaveGroup]
    by_cases able : s.isOnline q = true
    · by_cases heir : inherits p q (s.group g) = true
      · simp [able, heir]
      · simp [able, heir]
    · simp [able]

/-- The port that leaves inherits no lease: it is out of every queue. -/
theorem not_inherits_self (p : Port) (r : Group) : inherits p p r = false := by
  have absent : (r.waitQueue.filter (· != p)).head? ≠ some p := fun heads => by
    simpa using (List.mem_filter.mp (List.mem_of_head? heads)).2
  rw [inherits, beq_eq_false_iff_ne.mpr absent, Bool.and_false]

/-- Every group left, from G0 to G15 (R167). -/
@[irreducible] def leaveAll (p : Port) (s : State) : State := allGroups.foldl (leaveGroup p) s

theorem leaveAll_def (p : Port) (s : State) : leaveAll p s = allGroups.foldl (leaveGroup p) s := by
  unfold leaveAll
  rfl

theorem leaveAll_frame (p : Port) (s : State) :
    leaveAll p s =
      { s with
        entries := (leaveAll p s).entries, groups := (leaveAll p s).groups, ports := (leaveAll p s).ports } := by
  rw [leaveAll_def]
  exact foldl_leaveGroup_frame p allGroups s

theorem group_leaveAll (p : Port) (s : State) (h : GroupId) : (leaveAll p s).group h = leftRecord p (s.group h) := by
  rw [leaveAll_def, group_foldl (group_leaveGroup p) allGroups nodup_allGroups, if_pos (mem_allGroups h)]

theorem entry_leaveAll (p : Port) (s : State) (i : Byte) :
    (leaveAll p s).entry i =
      match s.entry i with
      | some (.value v) =>
        some (.value (if losesSet p (s.group v.group) = true then { v with staged := none } else v))
      | e => e := by
  rw [leaveAll_def, entry_foldl_leaveGroup p nodup_allGroups]
  match s.entry i with
  | none | some (.fan _) => rfl
  | some (.value v) => simp only [mem_allGroups, true_and]

/-- The port that leaves gets no notice of it. -/
theorem portUnit_leaveAll_self (p : Port) (s : State) : (leaveAll p s).portUnit p = s.portUnit p := by
  rw [leaveAll_def, portUnit_foldl_leaveGroup p nodup_allGroups]
  simp [not_inherits_self]

/-! ### The session closed -/

/-- The state after a LEAVE, before the response (R167). -/
def sessionClosed (p : Port) (s : State) : State :=
  closeSession p { leaveAll p s with claim := if s.claim = some p then none else s.claim }

theorem leaveReply_eq (p : Port) (s : State) :
    leaveReply p s =
      answer (sessionClosed p s) .ok [(s.portUnit p).sessionNumber, countByte (s.portUnit p).queue.length] := by
  have claim : (leaveAll p s).claim = s.claim := by rw [leaveAll_frame]
  unfold leaveReply sessionClosed
  rw [← leaveAll_def, ← claim, ← portUnit_leaveAll_self p s]
  rfl

theorem sessionClosed_frame (p : Port) (s : State) :
    sessionClosed p s =
      { s with
        claim := if s.claim = some p then none else s.claim
        entries := (sessionClosed p s).entries, groups := (sessionClosed p s).groups
        ports := (sessionClosed p s).ports } := by
  unfold sessionClosed
  rw [leaveAll_frame]
  rfl

theorem portUnit_sessionClosed_self (p : Port) (s : State) :
    (sessionClosed p s).portUnit p = { s.portUnit p with session := .offline, attention := false, queue := [] } := by
  rw [← portUnit_leaveAll_self p s]
  exact portUnit_setPort_self _ _ _

theorem portUnit_sessionClosed_other {p q : Port} (other : q ≠ p) (s : State) :
    (sessionClosed p s).portUnit q =
      { s.portUnit q with
        queue :=
          if s.isOnline q then
            (allGroups.filter fun g => inherits p q (s.group g)).foldl
              (fun queue g => enqueue queue (.leaseGranted g .leave) s.timing.frameNumber) (s.portUnit q).queue
          else (s.portUnit q).queue } := by
  rw [sessionClosed, closeSession, portUnit_setPort, if_neg (Ne.symm other),
    ← portUnit_foldl_leaveGroup p nodup_allGroups, ← leaveAll_def]
  rfl

theorem exec_leave {p : Port} {tag : Byte} {s : State} (taken : Taken s p) :
    exec (.leave p tag) s = .next ((sessionClosed p (s.endTransaction p)).respond p
      ⟨tag, .ok, [(s.portUnit p).sessionNumber, countByte (s.portUnit p).queue.length]⟩) := by
  obtain ⟨hears, online⟩ := taken
  change Host.Outcome.next (takeCommand p .leave tag 0 (leaveReply p) s) = _
  rw [takeCommand_taken (transactionLost_of_hears hears) (.inl online) rfl, leaveReply_eq]
  simp only [answer, if_true, State.endTransaction, portUnit_setPort_self]

/-- Settles O11: each group is left once (`group_foldl`), and the leases passed on are told of in order. -/
theorem leaveClosesSession : Obligations.LeaveClosesSession := by
  intro p tag s taken
  have ended : ∀ q, q ≠ p → (s.endTransaction p).portUnit q = s.portUnit q := fun q other => by
    rw [State.endTransaction, portUnit_setPort, if_neg (Ne.symm other)]
  refine ⟨_, exec_leave taken, ?_, group_leaveAll p (s.endTransaction p), fun i => ?_, ?_, fun q other => ?_⟩
  · rw [sessionClosed_frame]
    rfl
  · refine (entry_leaveAll p (s.endTransaction p) i).trans ?_
    rw [endTransaction_entry]
    match s.entry i with
    | none | some (.fan _) => rfl
    | some (.value v) => simp only [losesSet, Bool.and_eq_true, beq_iff_eq, endTransaction_group]
  · rw [State.respond, portUnit_setPort_self, portUnit_sessionClosed_self, State.endTransaction, portUnit_setPort_self]
    rfl
  · rw [State.respond, portUnit_setPort, if_neg (Ne.symm other), portUnit_sessionClosed_other other, ended q other,
      isOnline_endTransaction]
    rfl

end Sys2Proof.Proofs
end

section
namespace Sys2Proof.Proofs

open Sys2Proof Sys2Proof.Machine

/-! ## The roster: leases and epochs

`roster` is what the laws of leases, patience and epochs speak of (R30, R40, R48). Every command either makes a run of the
few steps of `RosterStep`, which keep all epochs, or it is an evaluation, which keeps all leases, or a device reset
(`exec_tenure`). -/

/-- The lease of a group: who holds it, who waits for it, and how far patience with the holder has gone (R40, R48). -/
structure Lease where
  lessee : Option Port
  waitQueue : List Port
  patience : Byte
  patienceLimit : Byte

def leaseOf (r : Group) : Lease := ⟨r.lessee, r.waitQueue, r.patience, r.patienceLimit⟩

/-- A lease freed: it passes to the head of the queue, or to no port (R43, R45). -/
def Lease.passed (l : Lease) : Lease :=
  { l with lessee := l.waitQueue.head?, waitQueue := l.waitQueue.tail, patience := 0#8 }

/-- A lease torn down (R36, R54). -/
def Lease.tornDown (l : Lease) : Lease := { l with lessee := none, waitQueue := [], patience := 0#8 }

structure Roster where
  mode : Mode
  online : Port → Bool
  lease : GroupId → Lease
  epoch : GroupId → Half

def roster (s : State) : Roster where
  mode := s.mode
  online := s.isOnline
  lease g := leaseOf (s.group g)
  epoch g := (s.group g).epoch

def Roster.setLease (r : Roster) (g : GroupId) (l : Lease) : Roster := { r with lease := Function.update r.lease g l }

/-- The changes of one lease. -/
inductive LeaseStep (r : Roster) (l : Lease) : Lease → Prop
  | grant (p : Port) (online : r.online p = true) (free : l.lessee = none) :
      LeaseStep r l { l with lessee := some p, patience := 0#8 }
  | wait (p : Port) (online : r.online p = true) (held : l.lessee ≠ none) (other : l.lessee ≠ some p)
      (absent : p ∉ l.waitQueue) :
      LeaseStep r l { l with waitQueue := l.waitQueue ++ [p] }
  | quit (p : Port) : LeaseStep r l { l with waitQueue := l.waitQueue.filter (· != p) }
  | pass : LeaseStep r l l.passed
  | progress : LeaseStep r l { l with patience := 0#8 }
  | advance (running : r.mode = .running) (limited : l.patienceLimit ≠ 0#8)
      (below : l.patience + 1#8 ≠ l.patienceLimit) :
      LeaseStep r l { l with patience := l.patience + 1#8 }
  | limit (patienceLimit : Byte) (config : r.mode = .config) : LeaseStep r l { l with patienceLimit := patienceLimit }

/-- The changes of a roster: no epoch changes. -/
inductive RosterStep (r : Roster) : Roster → Prop
  | lease (g : GroupId) (l : Lease) (step : LeaseStep r (r.lease g) l) : RosterStep r (r.setLease g l)
  | enter (mode : Mode) (config : mode ≠ .config) (starting : mode = .starting → r.mode = .config) :
      RosterStep r { r with mode := mode }
  | teardown : RosterStep r { r with mode := .config, lease := fun g => (r.lease g).tornDown }
  | join (p : Port) : RosterStep r { r with online := Function.update r.online p true }
  | leave (p : Port) (left : ∀ g, (r.lease g).lessee ≠ some p ∧ p ∉ (r.lease g).waitQueue) :
      RosterStep r { r with online := Function.update r.online p false }

/-- What happens to the roster between two states, step by step. -/
abbrev Runs (s t : State) : Prop := Relation.ReflTransGen RosterStep (roster s) (roster t)

theorem Runs.of_eq {s t : State} (h : roster t = roster s) : Runs s t := by
  rw [Runs, h]

theorem Runs.of_step {s t : State} {r : Roster} (h : roster t = r) (step : RosterStep (roster s) r) : Runs s t := by
  rw [Runs, h]
  exact .single step

/-! ### The roster after each update -/

theorem roster_congr {s t : State} (mode : t.mode = s.mode) (online : ∀ p, t.isOnline p = s.isOnline p)
    (groups : t.groups = s.groups) : roster t = roster s := by
  have same : ∀ g, t.group g = s.group g := fun g => by rw [State.group, groups, State.group]
  simp only [roster, mode, same, funext online]

theorem roster_setPort {p : Port} {u : PortUnit} (s : State) (session : u.session = (s.portUnit p).session) :
    roster (s.setPort p u) = roster s := by
  refine roster_congr rfl (fun q => ?_) rfl
  rw [State.isOnline, portUnit_setPort]
  split
  · next here => rw [session, ← here, State.isOnline, here]
  · rfl

@[simp] theorem roster_notify (s : State) (p : Port) (n : Notice) : roster (s.notify p n) = roster s :=
  roster_congr (notify_mode s p n) (fun q => isOnline_notify s p q n) (notify_groups s p n)

@[simp] theorem roster_notifyOptional (s : State) (p : Option Port) (n : Notice) :
    roster (s.notifyOptional p n) = roster s :=
  roster_congr (notifyOptional_mode s p n) (fun q => isOnline_notifyOptional s p q n) (notifyOptional_groups s p n)

@[simp] theorem roster_notifyEach (s : State) (ports : List Port) (n : Port → Notice) :
    roster (s.notifyEach ports n) = roster s :=
  roster_congr (notifyEach_mode s ports n) (isOnline_notifyEach s ports n) (notifyEach_groups s ports n)

@[simp] theorem roster_endTransaction (s : State) (p : Port) : roster (s.endTransaction p) = roster s :=
  roster_setPort s rfl

@[simp] theorem roster_respond (s : State) (p : Port) (r : Response) : roster (s.respond p r) = roster s :=
  roster_setPort s rfl

/-- A group record replaced, its epoch kept. -/
theorem roster_setGroup {s : State} {g : GroupId} {r : Group} (epoch : r.epoch = (s.group g).epoch) :
    roster (s.setGroup g r) = (roster s).setLease g (leaseOf r) := by
  have leases : (fun h => leaseOf ((s.setGroup g r).group h)) = Function.update (roster s).lease g (leaseOf r) := by
    funext h
    rw [group_setGroup]
    by_cases here : g = h
    · subst here; simp
    · rw [if_neg here, Function.update_of_ne (Ne.symm here)]; rfl
  have epochs : (fun h => ((s.setGroup g r).group h).epoch) = (roster s).epoch := by
    funext h
    rw [group_setGroup]
    split
    · next here => rw [epoch, here]; rfl
    · rfl
  simp only [roster, Roster.setLease] at leases epochs ⊢
  rw [leases, epochs]
  rfl

/-- A group record replaced, its epoch and its lease kept. -/
theorem roster_setGroup_same {s : State} {g : GroupId} {r : Group} (epoch : r.epoch = (s.group g).epoch)
    (lease : leaseOf r = leaseOf (s.group g)) : roster (s.setGroup g r) = roster s := by
  rw [roster_setGroup epoch, lease]
  exact congrArg (fun l => { roster s with lease := l }) (Function.update_eq_self g (roster s).lease)

@[simp] theorem roster_discardSet (g : GroupId) (s : State) : roster (discardSet g s) = roster s :=
  roster_setGroup_same (s := s.mapEntries (discardEntry g)) rfl rfl

theorem roster_freeLease (g : GroupId) (event : FreeingEvent) (s : State) :
    roster (freeLease g event s) = (roster s).setLease g ((roster s).lease g).passed := by
  cases queue : (s.group g).waitQueue with
  | nil =>
    rw [freeLease_nil queue, roster_setGroup (by rfl)]
    simp [roster, leaseOf, Lease.passed, queue]
  | cons next rest =>
    rw [freeLease_cons queue, roster_notify, roster_setGroup (by rfl)]
    simp [roster, leaseOf, Lease.passed, queue]

theorem roster_giveUpLease (g : GroupId) (event : FreeingEvent) (s : State) :
    roster (giveUpLease g event s) = (roster s).setLease g ((roster s).lease g).passed := by
  rw [giveUpLease, roster_freeLease]
  split
  · rw [roster_discardSet]
  · rfl

@[simp] theorem roster_changeMode (new : Mode) (s : State) : roster (changeMode new s) = { roster s with mode := new } :=
  roster_notifyEach _ _ _

theorem roster_enterConfig (s : State) :
    roster (enterConfig s) = { roster s with mode := .config, lease := fun g => ((roster s).lease g).tornDown } := by
  simp only [roster, enterConfig_mode, group_enterConfig, funext (isOnline_enterConfig s)]
  rfl

@[simp] theorem roster_produceBoundary (time : Nat) (frame : Half) (substitute : Option Byte) (s : State) :
    roster (produceBoundary time frame substitute s) = roster s := by
  refine roster_congr ?_ (isOnline_produceBoundary time frame substitute s) ?_ <;> rw [produceBoundary_eq]

end Sys2Proof.Proofs
end

section
namespace Sys2Proof.Proofs

open Sys2Proof Sys2Proof.Machine

/-! ### The roster after each block's answer -/

theorem roster_setPort_session (s : State) (p : Port) (u : PortUnit) :
    roster (s.setPort p u) = { roster s with online := Function.update (roster s).online p (u.session == .online) } := by
  have online : (s.setPort p u).isOnline = Function.update (roster s).online p (u.session == .online) := by
    funext q
    rw [State.isOnline, portUnit_setPort]
    by_cases here : p = q
    · subst here; simp
    · rw [if_neg here, Function.update_of_ne (Ne.symm here)]; rfl
  rw [roster, online]
  rfl

theorem runs_foldl {α : Type} {f : State → α → State} (each : ∀ s a, Runs s (f s a)) (l : List α) (s : State) :
    Runs s (l.foldl f s) := by
  induction l generalizing s with
  | nil => exact .refl
  | cons a rest ih => exact (each s a).trans (ih (f s a))

theorem runs_setGroup {s : State} {g : GroupId} {r : Group} (epoch : r.epoch = (s.group g).epoch)
    (step : LeaseStep (roster s) (leaseOf (s.group g)) (leaseOf r)) : Runs s (s.setGroup g r) :=
  .of_step (roster_setGroup epoch) (.lease g _ step)

theorem runs_giveUpLease (g : GroupId) (event : FreeingEvent) (s : State) : Runs s (giveUpLease g event s) :=
  .of_step (roster_giveUpLease g event s) (.lease g _ .pass)

theorem runs_enterConfig (s : State) : Runs s (enterConfig s) := .of_step (roster_enterConfig s) .teardown

theorem runs_voidWork (s : State) : Runs s s.voidWork := .refl

/-- A change of mode that enters neither CONFIG nor STARTING. -/
theorem runs_changeMode {new : Mode} (s : State) (config : new ≠ .config) (starting : new ≠ .starting) :
    Runs s (changeMode new s) :=
  .of_step (roster_changeMode new s) (.enter new config fun h => absurd h starting)

@[simp] theorem roster_tellTiming (m : ModeMessage) (s : State) : roster (tellTiming m s) = roster s := rfl

section
variable {s : State}

theorem runs_modeChecked {modes : Mode → Bool} {body : State → Reply} (h : Runs s (body s).state) :
    Runs s (modeChecked modes body s).state := by
  unfold modeChecked
  split
  · exact h
  · exact .refl

theorem runs_groupChecked {group : Byte} {body : GroupId → State → Reply} (h : ∀ g, Runs s (body g s).state) :
    Runs s (groupChecked group body s).state := by
  unfold groupChecked
  split
  · exact .refl
  · exact h _

theorem runs_entryChecked {index : Byte} {body : Entry → State → Reply} (h : ∀ e, Runs s (body e s).state) :
    Runs s (entryChecked index body s).state := by
  unfold entryChecked
  split
  · exact .refl
  · exact h _

theorem runs_withLease {p : Port} {g : GroupId} {body : State → Reply} (h : Runs s (body s).state) :
    Runs s (withLease p g body s).state := by
  unfold withLease
  split
  · exact h
  · exact .refl

theorem runs_claimed {p : Port} {data : List Byte} {body : State → Reply} (h : s.mode = .config → Runs s (body s).state) :
    Runs s (claimed p data body s).state := by
  rcases claimed_cases p data body s with ⟨_, eq⟩ | ⟨_, _, eq⟩ | ⟨config, _, eq⟩ <;> rw [eq]
  · exact .refl
  · exact .refl
  · exact h config

end

theorem runs_takeCommand {p : Port} {c : Command} {tag : Byte} {L : Nat} {body : State → Reply} {s : State}
    (h : ∀ t, t.isOnline p = true ∨ c.openToOffline = true → Runs t (body t).state) :
    Runs s (takeCommand p c tag L body s) := by
  have ended : Runs s (s.endTransaction p) := .of_eq (roster_endTransaction s p)
  have responded : ∀ t r, Runs t (t.respond p r) := fun t r => .of_eq (roster_respond t p r)
  rcases takeCommand_cases p c tag L body s with eq | ⟨cause, eq⟩ | ⟨_, able, _, eq⟩ <;> rw [eq]
  · exact ended
  · exact ended.trans (responded _ _)
  · have answered := ended.trans (h (s.endTransaction p) (by rwa [isOnline_endTransaction]))
    split
    · exact answered.trans (responded _ _)
    · exact answered

theorem runs_answering {p : Port} {c : Command} {tag : Byte} {L : Nat} {body : State → Reply} {s : State}
    (h : ∀ t, Runs t (body t).state) : Runs s (takeCommand p c tag L body s) :=
  runs_takeCommand fun t _ => h t

section
variable (p : Port) (group index : Byte) (s : State)

/-! ### Sessions, the claim and the modes -/

theorem runs_joinReply (attention : Byte) : Runs s (joinReply p attention s).state := by
  unfold joinReply
  split
  · exact .refl
  · simp only
    split
    · exact .refl
    · exact .of_step (roster_setPort_session _ _ _) (.join p)

theorem runs_leaveGroup (g : GroupId) : Runs s (leaveGroup p s g) := by
  have quit : Runs s (unqueued p g s) := runs_setGroup rfl (.quit p)
  have left : ∀ t : State, Runs t (t.modifyGroup g (unsubscribed p)) := fun t => .of_eq (roster_setGroup_same rfl rfl)
  by_cases held : (s.group g).lessee = some p
  · rw [leaveGroup_of_lessee held]
    exact (quit.trans (runs_giveUpLease _ _ _)).trans (left _)
  · rw [leaveGroup_of_other held]
    exact quit.trans (left _)

/-- A port that has left a group neither holds nor awaits its lease (R53). -/
theorem leftRecord_free (r : Group) : (leftRecord p r).lessee ≠ some p ∧ p ∉ (leftRecord p r).waitQueue := by
  have absent : p ∉ r.waitQueue.filter (· != p) := fun member => by simpa using (List.mem_filter.mp member).2
  by_cases held : r.lessee = some p
  · simp only [leftRecord, held, beq_self_eq_true, if_true]
    exact ⟨fun heads => absent (List.mem_of_head? heads), fun member => absent (List.mem_of_mem_tail member)⟩
  · simp only [leftRecord, beq_eq_false_iff_ne.mpr held, Bool.false_eq_true, if_false]
    exact ⟨held, absent⟩

theorem runs_leaveReply : Runs s (leaveReply p s).state := by
  rw [leaveReply_eq]
  have left : Runs s (leaveAll p s) := by
    rw [leaveAll_def]
    exact runs_foldl (runs_leaveGroup p) allGroups s
  have unclaimed : ∀ claim, Runs s { leaveAll p s with claim := claim } := fun _ => left
  have free : ∀ g, ((leaveAll p s).group g).lessee ≠ some p ∧ p ∉ ((leaveAll p s).group g).waitQueue := fun g => by
    rw [group_leaveAll]
    exact leftRecord_free p (s.group g)
  exact (unclaimed _).trans (Runs.of_step (roster_setPort_session _ _ _) (.leave p free))

theorem runs_fetchReply (n : Byte) : Runs s (fetchReply p n s).state := by
  unfold fetchReply
  split
  · exact .refl
  · exact .of_eq (roster_setPort s rfl)

theorem runs_claimReply : Runs s (claimReply p s).state := by
  unfold claimReply
  split
  · exact .refl
  · split <;> exact .refl

theorem runs_releaseClaimReply : Runs s (releaseClaimReply p s).state := by
  unfold releaseClaimReply
  split
  · exact .refl
  · split <;> exact .refl

theorem runs_startBody (config : s.mode = .config) : Runs s (startBody s).state := by
  unfold startBody
  split
  · exact .refl
  · exact .of_step ((roster_tellTiming _ _).trans (roster_changeMode .starting _)) (.enter .starting nofun fun _ => config)

theorem runs_stopReply : Runs s (stopReply s).state := by
  have stopped : Runs s (changeMode .stopping s.voidWork) := (runs_voidWork s).trans (runs_changeMode _ nofun nofun)
  unfold stopReply
  split
  · exact .refl
  · exact .refl
  · exact stopped
  all_goals exact runs_enterConfig s

theorem runs_resumeReply : Runs s (resumeReply s).state := by
  unfold resumeReply
  split <;> exact .refl

/-! ### The layout, the parameters and the frame settings -/

theorem runs_defineEntryBody (width writers limits : Byte) (words : List Word) :
    Runs s (defineEntryBody index group width writers limits words s).state := by
  unfold defineEntryBody
  split
  · exact .refl
  · split
    · exact .refl
    · split
      · exact .refl
      · split <;> exact .refl

theorem runs_defineFanBody (writers : Byte) (targets : List Byte) :
    Runs s (defineFanBody index group writers targets s).state := by
  unfold defineFanBody
  split
  · exact .refl
  · split <;> exact .refl

theorem runs_deleteEntryBody : Runs s (deleteEntryBody index s).state := by
  unfold deleteEntryBody
  split <;> exact .refl

theorem runs_defineGroupBody (staleLimit ackDeadline patienceLimit : Byte) (config : s.mode = .config) :
    Runs s (defineGroupBody group staleLimit ackDeadline patienceLimit s).state := by
  unfold defineGroupBody
  split
  · exact .refl
  · split
    · exact .refl
    · exact runs_setGroup rfl (.limit patienceLimit config)

theorem runs_defineBundleBody (bundle : Byte) (list : List Byte) : Runs s (defineBundleBody bundle list s).state := by
  unfold defineBundleBody
  split
  · exact .refl
  · split
    · exact .refl
    · split
      · exact .refl
      · split
        · exact .refl
        · split <;> exact .refl

theorem runs_setFrameBody (source : Byte) (period : Word) : Runs s (setFrameBody source period s).state := by
  unfold setFrameBody
  split
  · exact .refl
  · split <;> exact .refl

/-! ### Leases (R42, R43, R44) -/

variable {p s} in
theorem runs_leaseReply (online : s.isOnline p = true) : Runs s (leaseReply p group s).state := by
  rw [leaseReply_eq]
  refine runs_modeChecked (runs_groupChecked fun g => ?_)
  unfold leaseGroup
  simp only
  split
  · next free => exact runs_setGroup rfl (.grant p online free)
  · next holder lessee =>
    split
    · exact .refl
    · next stranger =>
      obtain ⟨other, absent⟩ := not_or.mp stranger
      have held : (leaseOf (s.group g)).lessee ≠ none := by simp [leaseOf, lessee]
      have notOwn : (leaseOf (s.group g)).lessee ≠ some p := by simpa [leaseOf, lessee] using other
      exact runs_setGroup rfl (.wait p online held notOwn absent)

theorem runs_releaseReply : Runs s (releaseReply p group s).state := by
  rw [releaseReply_eq]
  refine runs_modeChecked (runs_groupChecked fun g => ?_)
  unfold releaseGroup
  simp only
  split
  · exact runs_giveUpLease _ _ _
  · split
    · exact runs_setGroup rfl (.quit p)
    · exact .refl

/-! ### Staged sets: every accepted command of the lessee clears the patience counter (R48) -/

theorem runs_openStaging (g : GroupId) : Runs s (openStaging g s) := runs_setGroup rfl .progress

theorem runs_stageValue (words : List Word) (v : ValueEntry) : Runs s (stageValue p index words v s).state := by
  unfold stageValue
  split
  · exact .refl
  · split
    · exact .refl
    · split
      · exact .refl
      · exact runs_openStaging (s.setEntry index _) v.group

theorem runs_stageFan (words : List Word) (f : FanEntry) : Runs s (stageFan p index words f s).state := by
  have written : ∀ staged, Runs s (writeTargets s staged) := fun staged => by
    rw [writeTargets_eq]
    exact .refl
  unfold stageFan
  split
  · split
    · exact .refl
    · split
      · exact .refl
      · split
        · exact .refl
        · exact (written _).trans (runs_openStaging _ f.group)
  · exact .refl

theorem runs_stageReply (words : List Word) : Runs s (stageReply p index words s).state := by
  rw [stageReply_eq]
  refine runs_modeChecked (runs_entryChecked fun e => runs_withLease ?_)
  split
  · exact .refl
  all_goals
    split
    · exact runs_stageValue p index s words _
    · exact runs_stageFan p index s words _

theorem runs_unstageReply : Runs s (unstageReply p index s).state := by
  have unstaged : ∀ indices, Runs s (unstageAll s indices) := fun indices => by
    rw [unstageAll_eq]
    exact .refl
  rw [unstageReply_eq]
  refine runs_modeChecked (runs_entryChecked fun e => runs_withLease ?_)
  split
  · exact .refl
  · exact runs_setGroup rfl .progress
  · split
    · exact (unstaged _).trans (runs_setGroup rfl .progress)
    · exact .refl

theorem runs_sealReply (delay marked : Byte) : Runs s (sealReply p group delay marked s).state := by
  rw [sealReply_eq]
  refine runs_modeChecked (runs_groupChecked fun g => ?_)
  unfold sealChecked
  split
  · exact .refl
  · split
    · exact .refl
    · refine runs_withLease ?_
      split
      · exact .refl
      all_goals exact runs_setGroup rfl .progress

theorem runs_unsealReply : Runs s (unsealReply p group s).state := by
  rw [unsealReply_eq]
  refine runs_modeChecked (runs_groupChecked fun g => runs_withLease ?_)
  simp only
  split
  · exact runs_setGroup rfl .progress
  all_goals exact .refl

theorem runs_readStagedReply : Runs s (readStagedReply p index s).state := by
  rw [readStagedReply_eq]
  refine runs_modeChecked (runs_entryChecked fun e => runs_withLease ?_)
  split
  · exact .refl
  · split <;> exact .refl

/-! ### Subscriptions and acknowledgments -/

theorem runs_subscribeReply (mode : Byte) : Runs s (subscribeReply p group mode s).state := by
  unfold subscribeReply
  split
  · exact .refl
  · split
    · exact .refl
    · exact .of_eq (roster_setGroup_same rfl rfl)

theorem runs_ackReply (epoch : Half) : Runs s (ackReply p group epoch s).state := by
  rw [ackReply_eq]
  refine runs_modeChecked (runs_groupChecked fun g => ?_)
  unfold ackGroup
  split
  · exact .refl
  · split
    · exact .refl
    · exact .of_eq (roster_setGroup_same rfl rfl)

end

end Sys2Proof.Proofs
end

section
namespace Sys2Proof.Proofs

open Sys2Proof Sys2Proof.Machine

/-! ### Evaluations keep every lease (R92 to R95) -/

/-- A change of epochs alone. -/
def LeasesKept (s t : State) : Prop := roster t = { roster s with epoch := (roster t).epoch }

theorem LeasesKept.of_eq {s t : State} (h : roster t = roster s) : LeasesKept s t := by
  rw [LeasesKept, h]

theorem LeasesKept.trans {s t u : State} (h : LeasesKept s t) (k : LeasesKept t u) : LeasesKept s u := by
  rw [LeasesKept] at h k ⊢
  rw [k, h]

theorem leasesKept_foldl {α : Type} {f : State → α → State} (each : ∀ s a, LeasesKept s (f s a)) (l : List α) (s : State) :
    LeasesKept s (l.foldl f s) := by
  induction l generalizing s with
  | nil => exact .of_eq rfl
  | cons a rest ih => exact (each s a).trans (ih (f s a))

theorem leasesKept_commitGroup (frame : Half) (g : GroupId) (s : State) : LeasesKept s (commitGroup frame g s) := by
  have lease : ∀ h, leaseOf ((commitGroup frame g s).group h) = leaseOf (s.group h) := fun h => by
    rw [group_commitGroup]
    split
    · next here => rw [← here]; rfl
    · rfl
  have mode : (commitGroup frame g s).mode = s.mode := by rw [commitGroup_eq]
  simp only [LeasesKept, roster, lease, mode, funext (isOnline_commitGroup frame g s)]

theorem roster_deferGroup (g : GroupId) (s : State) : roster (deferGroup g s) = roster s := by
  unfold deferGroup
  simp only
  split
  · rw [roster_notifyEach]
    exact roster_setGroup_same rfl rfl
  · exact roster_setGroup_same rfl rfl

theorem roster_lowerCountdown (g : GroupId) (s : State) : roster (lowerCountdown g s) = roster s := by
  by_cases closed : (s.group g).state = .sealed
  · rw [lowerCountdown_of_sealed closed]
    exact roster_setGroup_same rfl rfl
  · rw [lowerCountdown_of_unsealed closed]

theorem leasesKept_evaluateGroup (frame : Half) (g : GroupId) (s : State) : LeasesKept s (evaluateGroup frame g s) := by
  have lowered : LeasesKept s (lowerCountdown g s) := .of_eq (roster_lowerCountdown g s)
  unfold evaluateGroup
  simp only
  split
  · split
    · exact lowered.trans (leasesKept_commitGroup frame g _)
    · exact lowered.trans (.of_eq (roster_deferGroup g _))
  · exact lowered

theorem leasesKept_evaluateBundle (frame : Half) (b : BundleId) (s : State) : LeasesKept s (evaluateBundle frame b s) := by
  have lowered : LeasesKept s ((members (s.bundle b)).foldl (fun t g => lowerCountdown g t) s) :=
    leasesKept_foldl (fun t g => .of_eq (roster_lowerCountdown g t)) _ s
  unfold evaluateBundle
  simp only
  split
  · exact lowered.trans (leasesKept_foldl (fun t g => leasesKept_commitGroup frame g t) _ _)
  · exact lowered.trans (leasesKept_foldl (fun t g => .of_eq (roster_deferGroup g t)) _ _)

/-! ### Every command -/

/-- What a command does to the roster. -/
inductive Tenure (c : Instr) (s t : State) : Prop
  | runs (run : Runs s t)
  | evaluated (evaluation : (∃ g, c = .groupEvaluation g) ∨ ∃ b, c = .bundleEvaluation b) (kept : LeasesKept s t)
  | reset (resets : Resets c) (fresh : roster t = roster State.reset)

theorem roster_deviceReset (s : State) : roster (deviceReset s) = roster State.reset := by
  refine roster_congr rfl (fun p => ?_) rfl
  rw [State.isOnline, portUnit_deviceReset, State.isOnline, portUnit_reset]
  rfl

section
variable (s : State)

theorem tenure_resetDevice (p : Port) (tag : Byte) :
    Tenure (.resetDevice p tag) s
      (takeCommand p .resetDevice tag 0 (claimed p [] fun s => ⟨deviceReset s, .ok, [], false⟩) s) := by
  have ended : Runs s (s.endTransaction p) := .of_eq (roster_endTransaction s p)
  have responded : ∀ r, Runs s ((s.endTransaction p).respond p r) := fun r => ended.trans (Runs.of_eq (roster_respond _ p r))
  rcases takeCommand_cases p .resetDevice tag 0 (claimed p [] fun s => ⟨deviceReset s, .ok, [], false⟩) s with
    eq | ⟨cause, eq⟩ | ⟨_, _, _, eq⟩ <;> rw [eq]
  · exact .runs ended
  · exact .runs (responded _)
  · rcases claimed_cases p [] (fun s => ⟨deviceReset s, .ok, [], false⟩) (s.endTransaction p) with
      ⟨_, refused⟩ | ⟨_, _, refused⟩ | ⟨_, _, accepted⟩
    · rw [refused]
      exact .runs (responded _)
    · rw [refused]
      exact .runs (responded _)
    · rw [accepted]
      exact .reset (.inr (.inr ⟨p, tag, rfl⟩)) (roster_deviceReset _)

theorem runs_badframe (p : Port) (mosi : List Byte) : ∃ t, execBadframe p mosi s = .next t ∧ Runs s t := by
  have ended : Runs s (s.endTransaction p) := .of_eq (roster_endTransaction s p)
  refine ⟨_, rfl, ?_⟩
  split
  · exact ended
  · split
    · exact ended
    · split
      · exact ended.trans (Runs.of_eq (roster_respond _ p _))
      · exact .refl

theorem runs_csFalls (p : Port) : ∃ t, execCsFalls p s = .next t ∧ Runs s t := by
  refine ⟨_, rfl, ?_⟩
  split
  · exact .of_eq (roster_setPort s rfl)
  all_goals exact .refl

/-! ### Frame timing and mode control: reports and messages touch no lease, entries of modes do -/

theorem runs_takeEdge (time : Nat) : Runs s (takeEdge time s) := by
  have produced : ∀ (t : State) (frame : Half), roster t = roster s → Runs s (produceBoundary time frame none t) :=
    fun t frame same => .of_eq ((roster_produceBoundary time frame none t).trans same)
  unfold takeEdge
  split
  · exact produced _ _ rfl
  · split
    · unfold judgeEdge
      split
      · exact .refl
      · split
        · exact produced _ _ rfl
        · exact .refl
    · exact .refl
  · split
    · exact produced _ _ rfl
    · exact .refl
  all_goals exact .refl

theorem runs_fsyncEdge (time : Nat) : ∃ t, execFsyncEdge time s = .next t ∧ Runs s t := by
  refine ⟨_, rfl, ?_⟩
  split
  · exact .refl
  · exact runs_takeEdge s _

theorem runs_internalTimer : ∃ t, execInternalTimer s = .next t ∧ Runs s t := by
  refine ⟨_, rfl, ?_⟩
  split
  · exact .of_eq (roster_produceBoundary _ _ _ _)
  · exact .of_eq (roster_produceBoundary _ _ _ _)
  · exact .refl

theorem runs_windowExpiry : ∃ t, execWindowExpiry s = .next t ∧ Runs s t := by
  refine ⟨_, rfl, ?_⟩
  split
  · unfold expireWindow
    simp only
    split
    · exact .of_eq (roster_produceBoundary _ _ _ _)
    · exact .refl
  · exact .refl

variable {s} in
theorem runs_takeFrameLoss {t : State} (h : Runs s t) : Runs s (takeFrameLoss t) := by
  have lost : Runs s (changeMode .fault t) := h.trans (runs_changeMode t nofun nofun)
  unfold takeFrameLoss
  split
  · exact h
  · split
    · exact lost
    · exact h.trans (runs_enterConfig t)
    all_goals exact h

variable {s} in
theorem runs_handOn {t : State} {kind : BoundaryKind} {frame : Half} (h : Runs s t) : Runs s (handOn kind frame t) := h

variable {s} in
theorem runs_takeBoundary {t : State} {frame : Half} (h : Runs s t) : Runs s (takeBoundary frame t) := by
  have entered : Runs s (changeMode .running t) := h.trans (runs_changeMode t nofun nofun)
  unfold takeBoundary
  split
  · exact h
  · split
    · exact h
    · exact runs_handOn entered
    · exact runs_handOn h
    · exact runs_handOn entered
    · exact runs_handOn (h.trans (runs_enterConfig t))

theorem runs_frameLoss : ∃ t, execFrameLoss s = .next t ∧ Runs s t := by
  refine ⟨_, rfl, ?_⟩
  split
  · exact runs_takeFrameLoss .refl
  · exact .refl

theorem runs_boundaryTaken : ∃ t, execBoundaryTaken s = .next t ∧ Runs s t := by
  refine ⟨_, rfl, ?_⟩
  split
  · exact runs_takeBoundary .refl
  · exact .refl

theorem runs_enterFirst : ∃ t, execEnterFirst s = .next t ∧ Runs s t := by
  refine ⟨_, rfl, ?_⟩
  split <;> exact .refl

theorem runs_enterStopped : ∃ t, execEnterStopped s = .next t ∧ Runs s t := by
  refine ⟨_, rfl, ?_⟩
  split <;> exact .refl

/-! ### The work at a boundary -/

theorem runs_opening : ∃ t, execOpening s = .next t ∧ Runs s t := by
  refine ⟨_, rfl, ?_⟩
  split
  · exact .refl
  · split <;> exact .refl

theorem runs_closing : ∃ t, execClosing s = .next t ∧ Runs s t := by
  refine ⟨_, rfl, ?_⟩
  split
  · exact .refl
  · split <;> exact .refl

theorem runs_commitPulseEnd : ∃ t, execCommitPulseEnd s = .next t ∧ Runs s t := by
  refine ⟨_, rfl, ?_⟩
  split <;> exact .refl

theorem tenure_groupEvaluation (g : GroupId) :
    ∃ t, execGroupEvaluation g s = .next t ∧ Tenure (.groupEvaluation g) s t := by
  refine ⟨_, rfl, .evaluated (.inl ⟨g, rfl⟩) ?_⟩
  split
  · exact .of_eq rfl
  · split
    · simp only
      split
      · exact leasesKept_evaluateGroup _ g (s.modifyCurrentWork _)
      · exact .of_eq rfl
    · exact .of_eq rfl

theorem tenure_bundleEvaluation (b : BundleId) :
    ∃ t, execBundleEvaluation b s = .next t ∧ Tenure (.bundleEvaluation b) s t := by
  refine ⟨_, rfl, .evaluated (.inr ⟨b, rfl⟩) ?_⟩
  split
  · exact .of_eq rfl
  · split
    · simp only
      split
      · exact leasesKept_evaluateBundle _ b (s.modifyCurrentWork _)
      · exact .of_eq rfl
    · exact .of_eq rfl

/-- The revocation passes the lease on, whatever the counter had come to (R50). -/
theorem roster_revokeLease (g : GroupId) : roster (revokeLease g s) = (roster s).setLease g ((roster s).lease g).passed := by
  unfold revokeLease
  simp only
  split <;> simp only [roster_giveUpLease, roster_notifyOptional]

/-- A patience step in RUNNING (R49, R50). -/
theorem runs_advancePatience (g : GroupId) (running : s.mode = .running) : Runs s (advancePatience g s) := by
  unfold advancePatience
  simp only
  split
  · next loses =>
    split
    · refine .of_step (r := (roster s).setLease g ((roster s).lease g).passed) ?_ (.lease g _ .pass)
      rw [roster_revokeLease, roster_setGroup (by rfl)]
      simp [Roster.setLease, Lease.passed, leaseOf, roster]
    · next below =>
      have limited : (s.group g).patienceLimit ≠ 0#8 := by
        simp only [losesPatience, Bool.and_eq_true, bne_iff_ne] at loses
        exact loses.1.1
      exact runs_setGroup rfl (.advance running limited below)
  · exact .refl

theorem runs_patienceStep (g : GroupId) : ∃ t, execPatienceStep g s = .next t ∧ Runs s t := by
  refine ⟨_, rfl, ?_⟩
  split
  · exact .refl
  · simp only
    split
    · next acts =>
      rw [Bool.and_eq_true, actsAt_eq_true] at acts
      exact runs_advancePatience (State.dropFinished { s with boundaries := _ }) g acts.1.1
    · exact .refl

theorem runs_ageGroup (g : GroupId) : Runs s (ageGroup g s) := by
  have lapsed : ∀ t, roster (lapseGroup g t) = roster t := fun t => by
    simp only [lapseGroup, roster_notifyEach]
    exact roster_setGroup_same rfl rfl
  unfold ageGroup
  simp only
  split
  · exact .refl
  · split
    · exact .of_eq ((lapsed _).trans (roster_setGroup_same rfl rfl))
    · exact .of_eq (roster_setGroup_same rfl rfl)

theorem runs_ackStep (g : GroupId) : ∃ t, execAckStep g s = .next t ∧ Runs s t := by
  refine ⟨_, rfl, ?_⟩
  split
  · exact .refl
  · simp only
    split
    · exact runs_ageGroup (State.dropFinished { s with boundaries := _ }) g
    · exact .refl

end

theorem tenure_of_runs {c : Instr} {s : State} {r : Result} (h : ∃ t, r = .next t ∧ Runs s t) :
    ∃ t, r = .next t ∧ Tenure c s t := by
  obtain ⟨t, ht, run⟩ := h
  exact ⟨t, ht, .runs run⟩

theorem exec_tenure (c : Instr) (s : State) : ∃ t, exec c s = .next t ∧ Tenure c s t := by
  match c with
  | .nop _ _ | .status _ _ => exact ⟨_, rfl, .runs (runs_answering fun _ => .refl)⟩
  | .join p _ attention => exact ⟨_, rfl, .runs (runs_answering fun t => runs_joinReply p t attention)⟩
  | .leave p _ => exact ⟨_, rfl, .runs (runs_answering (runs_leaveReply p))⟩
  | .fetch p _ n => exact ⟨_, rfl, .runs (runs_answering fun t => runs_fetchReply p t n)⟩
  | .claimConfig p _ => exact ⟨_, rfl, .runs (runs_answering (runs_claimReply p))⟩
  | .releaseConfig p _ => exact ⟨_, rfl, .runs (runs_answering (runs_releaseClaimReply p))⟩
  | .start p _ => exact ⟨_, rfl, .runs (runs_answering fun t => runs_claimed (runs_startBody t))⟩
  | .stop p _ => exact ⟨_, rfl, .runs (runs_answering runs_stopReply)⟩
  | .resume p _ => exact ⟨_, rfl, .runs (runs_answering runs_resumeReply)⟩
  | .resetDevice p tag => exact ⟨_, rfl, tenure_resetDevice s p tag⟩
  | .defineEntry p _ index group width writers limits words =>
    exact ⟨_, rfl, .runs (runs_answering fun t =>
      runs_claimed fun _ => runs_defineEntryBody group index t width writers limits words)⟩
  | .defineFan p _ index group writers targets =>
    exact ⟨_, rfl, .runs (runs_answering fun t => runs_claimed fun _ => runs_defineFanBody group index t writers targets)⟩
  | .deleteEntry p _ index =>
    exact ⟨_, rfl, .runs (runs_answering fun t => runs_claimed fun _ => runs_deleteEntryBody index t)⟩
  | .defineGroup p _ group staleLimit ackDeadline patienceLimit =>
    exact ⟨_, rfl, .runs (runs_answering fun t =>
      runs_claimed (runs_defineGroupBody group t staleLimit ackDeadline patienceLimit))⟩
  | .defineBundle p _ bundle members =>
    exact ⟨_, rfl, .runs (runs_answering fun t => runs_claimed fun _ => runs_defineBundleBody t bundle members)⟩
  | .setFrame p _ source period =>
    exact ⟨_, rfl, .runs (runs_answering fun t => runs_claimed fun _ => runs_setFrameBody t source period)⟩
  | .read p _ index => exact ⟨_, rfl, .runs (runs_answering fun t => .of_eq (congrArg roster (state_readReply index t)))⟩
  | .readSet p _ indices =>
    exact ⟨_, rfl, .runs (runs_answering fun t => .of_eq (congrArg roster (state_readSetReply indices t)))⟩
  | .groupStatus p _ group =>
    exact ⟨_, rfl, .runs (runs_answering fun t => .of_eq (congrArg roster (state_groupStatusReply p group t)))⟩
  | .lease p _ group => exact ⟨_, rfl, .runs (runs_takeCommand fun _ able => runs_leaseReply group (able.resolve_right nofun))⟩
  | .release p _ group => exact ⟨_, rfl, .runs (runs_answering (runs_releaseReply p group))⟩
  | .stage p _ index words => exact ⟨_, rfl, .runs (runs_answering fun t => runs_stageReply p index t words)⟩
  | .unstage p _ index => exact ⟨_, rfl, .runs (runs_answering (runs_unstageReply p index))⟩
  | .seal p _ group delay marked =>
    exact ⟨_, rfl, .runs (runs_answering fun t => runs_sealReply p group t delay marked)⟩
  | .unseal p _ group => exact ⟨_, rfl, .runs (runs_answering (runs_unsealReply p group))⟩
  | .readStaged p _ index => exact ⟨_, rfl, .runs (runs_answering (runs_readStagedReply p index))⟩
  | .subscribe p _ group mode => exact ⟨_, rfl, .runs (runs_answering fun t => runs_subscribeReply p group t mode)⟩
  | .ack p _ group epoch => exact ⟨_, rfl, .runs (runs_answering fun t => runs_ackReply p group t epoch)⟩
  | .badframe p mosi => exact tenure_of_runs (runs_badframe s p mosi)
  | .pureRead p => exact ⟨_, rfl, .runs (.of_eq (roster_endTransaction s p))⟩
  | .fsyncEdge time => exact tenure_of_runs (runs_fsyncEdge s time)
  | .internalTimer => exact tenure_of_runs (runs_internalTimer s)
  | .windowExpiry => exact tenure_of_runs (runs_windowExpiry s)
  | .frameLoss => exact tenure_of_runs (runs_frameLoss s)
  | .boundaryTaken => exact tenure_of_runs (runs_boundaryTaken s)
  | .enterFirst => exact tenure_of_runs (runs_enterFirst s)
  | .enterStopped => exact tenure_of_runs (runs_enterStopped s)
  | .opening => exact tenure_of_runs (runs_opening s)
  | .groupEvaluation g => exact tenure_groupEvaluation s g
  | .bundleEvaluation b => exact tenure_bundleEvaluation s b
  | .closing => exact tenure_of_runs (runs_closing s)
  | .commitPulseEnd => exact tenure_of_runs (runs_commitPulseEnd s)
  | .patienceStep g => exact tenure_of_runs (runs_patienceStep s g)
  | .ackStep g => exact tenure_of_runs (runs_ackStep s g)
  | .noticeArrival p n => exact ⟨_, rfl, .runs (.of_eq (roster_notify s p n))⟩
  | .resetAssert => exact ⟨_, rfl, .reset (.inl rfl) (roster_deviceReset s)⟩
  | .resetRelease => exact ⟨_, rfl, .runs .refl⟩
  | .powerUp => exact ⟨_, rfl, .reset (.inr (.inl rfl)) (roster_deviceReset s)⟩
  | .csFalls p => exact tenure_of_runs (runs_csFalls s p)

end Sys2Proof.Proofs
end

section
namespace Sys2Proof.Proofs

open Sys2Proof Sys2Proof.Machine

/-! ## Leases, wait queues and patience (R36, R40, R48, R50) -/

/-- Every step with a command waiting is a tenure. -/
theorem step_tenure {s t : State} {c : Instr} {rest : List Instr} (next : s.pending = c :: rest)
    (h : step s = .next t) : Tenure c { s with pending := rest } t := by
  obtain ⟨u, hu, tenure⟩ := exec_tenure c { s with pending := rest }
  rw [step_eq_exec next, hu] at h
  cases h
  exact tenure

/-- A law of rosters that looks at no epoch is kept by every step, if each change of a roster keeps it and it holds at
reset. -/
theorem roster_law {P : Roster → Prop} (change : ∀ r r', P r → RosterStep r r' → P r')
    (epochs : ∀ r epoch, P r → P { r with epoch := epoch }) (reset : P (roster State.reset)) (s t : State)
    (h : P (roster s)) (hstep : step s = .next t) : P (roster t) := by
  cases next : s.pending with
  | nil => rw [step_idle next hstep]; exact h
  | cons c rest =>
    cases step_tenure next hstep with
    | runs run =>
      have kept : ∀ {r r'}, P r → Relation.ReflTransGen RosterStep r r' → P r' := fun hr run => by
        induction run with
        | refl => exact hr
        | tail _ last ih => exact change _ _ ih last
      exact kept (r := roster { s with pending := rest }) h run
    | evaluated _ kept =>
      rw [kept]
      exact epochs (roster { s with pending := rest }) _ h
    | reset _ fresh => rw [fresh]; exact reset

/-! ### Leases and queues in order (R40) -/

/-- The lease law of one lease, with the ports that are ONLINE. -/
structure Lease.Ordered (online : Port → Bool) (l : Lease) : Prop where
  nodup : l.waitQueue.Nodup
  lessee : ∀ p, l.lessee = some p → p ∉ l.waitQueue ∧ online p = true
  free : l.lessee = none → l.waitQueue = []
  waiting : ∀ p ∈ l.waitQueue, online p = true

def Roster.Ordered (r : Roster) : Prop := ∀ g, (r.lease g).Ordered r.online

theorem leasesOrdered_iff (s : State) : LeasesOrdered s ↔ (roster s).Ordered :=
  forall_congr' fun _ => ⟨fun ⟨nodup, lessee, free, waiting⟩ => ⟨nodup, lessee, free, waiting⟩,
    fun ⟨nodup, lessee, free, waiting⟩ => ⟨nodup, lessee, free, waiting⟩⟩

theorem LeaseStep.ordered {r : Roster} {l l' : Lease} (step : LeaseStep r l l') (h : l.Ordered r.online) :
    l'.Ordered r.online := by
  obtain ⟨nodup, lessee, free, waiting⟩ := h
  cases step with
  | grant p online vacant =>
    have empty := free vacant
    refine ⟨nodup, fun q here => ?_, nofun, waiting⟩
    obtain rfl : p = q := Option.some.inj here
    exact ⟨by simp [empty], online⟩
  | wait p online held other absent =>
    refine ⟨List.nodup_append.mpr ⟨nodup, by simp, fun q member x last => ?_⟩, fun q here => ?_, fun vacant => absurd vacant held,
      fun q member => ?_⟩
    · obtain rfl := List.mem_singleton.mp last
      exact fun same => absent (same ▸ member)
    · refine ⟨fun member => ?_, (lessee q here).2⟩
      rcases List.mem_append.mp member with before | last
      · exact (lessee q here).1 before
      · obtain rfl := List.mem_singleton.mp last
        exact other here
    · rcases List.mem_append.mp member with before | last
      · exact waiting q before
      · obtain rfl := List.mem_singleton.mp last
        exact online
  | quit p =>
    have fewer : ∀ q ∈ l.waitQueue.filter (· != p), q ∈ l.waitQueue := fun q member => (List.mem_filter.mp member).1
    exact ⟨nodup.filter _, fun q here => ⟨fun member => (lessee q here).1 (fewer q member), (lessee q here).2⟩,
      fun vacant => by simp [free vacant], fun q member => waiting q (fewer q member)⟩
  | pass =>
    unfold Lease.passed
    cases queue : l.waitQueue with
    | nil => exact ⟨by simp, nofun, fun _ => rfl, nofun⟩
    | cons next rest =>
      rw [queue] at nodup waiting
      obtain ⟨apart, nodup⟩ := List.nodup_cons.mp nodup
      obtain ⟨heir, others⟩ := List.forall_mem_cons.mp waiting
      refine ⟨nodup, fun q here => ?_, nofun, others⟩
      obtain rfl : next = q := Option.some.inj here
      exact ⟨apart, heir⟩
  | progress | advance | limit => exact ⟨nodup, lessee, free, waiting⟩

theorem RosterStep.ordered (r r' : Roster) (h : r.Ordered) (step : RosterStep r r') : r'.Ordered := by
  intro g
  cases step with
  | lease k l change =>
    by_cases here : g = k
    · subst here
      simpa [Roster.setLease] using change.ordered (h g)
    · simpa [Roster.setLease, here] using h g
  | enter => exact h g
  | teardown => exact ⟨by simp [Lease.tornDown], nofun, fun _ => rfl, nofun⟩
  | join p =>
    have online : ∀ q, r.online q = true → Function.update r.online p true q = true := fun q before => by
      by_cases here : q = p <;> simp [here, before]
    obtain ⟨nodup, lessee, free, waiting⟩ := h g
    exact ⟨nodup, fun q here => (lessee q here).imp_right (online q), free, fun q member => online q (waiting q member)⟩
  | leave p left =>
    obtain ⟨notLessee, notWaiting⟩ := left g
    obtain ⟨nodup, lessee, free, waiting⟩ := h g
    have online : ∀ q, q ≠ p → r.online q = true → Function.update r.online p false q = true := fun q other before => by
      rw [Function.update_of_ne other, before]
    exact ⟨nodup,
      fun q here => (lessee q here).imp_right (online q fun same => notLessee (same ▸ here)), free,
      fun q member => online q (fun same => notWaiting (same ▸ member)) (waiting q member)⟩

/-! ### Patience below its limit (R36, R48, R50) -/

/-- The patience law of one lease in a mode. -/
structure Lease.Patient (mode : Mode) (l : Lease) : Prop where
  quiet : mode = .config ∨ mode = .starting ∨ l.patienceLimit = 0#8 → l.patience = 0#8
  below : l.patienceLimit ≠ 0#8 → l.patience.toNat < l.patienceLimit.toNat

def Roster.Patient (r : Roster) : Prop := ∀ g, (r.lease g).Patient r.mode

theorem patienceHeld_iff (s : State) : PatienceHeld s ↔ (roster s).Patient :=
  forall_congr' fun _ => ⟨fun ⟨quiet, below⟩ => ⟨quiet, below⟩, fun ⟨quiet, below⟩ => ⟨quiet, below⟩⟩

theorem toNat_pos_of_ne_zero {b : Byte} (h : b ≠ 0#8) : 0 < b.toNat :=
  Nat.pos_of_ne_zero fun zero => h (BitVec.eq_of_toNat_eq zero)

/-- A counter at 0 meets the law in every mode and with every limit. -/
theorem Lease.Patient.of_zero {mode : Mode} {l : Lease} (zero : l.patience = 0#8) : l.Patient mode :=
  ⟨fun _ => zero, fun limited => by rw [zero]; exact toNat_pos_of_ne_zero limited⟩

theorem LeaseStep.patient {r : Roster} {l l' : Lease} (step : LeaseStep r l l') (h : l.Patient r.mode) :
    l'.Patient r.mode := by
  cases step with
  | grant | pass | progress => exact .of_zero rfl
  | wait | quit => exact ⟨h.quiet, h.below⟩
  | limit patienceLimit config => exact .of_zero (h.quiet (.inl config))
  | advance running limited below =>
    refine ⟨fun quiet => ?_, fun _ => ?_⟩
    · rcases quiet with config | starting | unlimited
      · simp [running] at config
      · simp [running] at starting
      · exact absurd unlimited limited
    · have before := h.below limited
      have next : (l.patience + 1#8).toNat ≠ l.patienceLimit.toNat := fun same => below (BitVec.eq_of_toNat_eq same)
      dsimp only
      rw [BitVec.toNat_add] at next ⊢
      have bound := l.patienceLimit.isLt
      simp at next ⊢
      omega

theorem RosterStep.patient (r r' : Roster) (h : r.Patient) (step : RosterStep r r') : r'.Patient := by
  intro g
  cases step with
  | lease k l change =>
    by_cases here : g = k
    · subst here
      simpa [Roster.setLease] using change.patient (h g)
    · simpa [Roster.setLease, here] using h g
  | enter mode config starting =>
    refine ⟨fun quiet => (h g).quiet ?_, (h g).below⟩
    rcases quiet with entered | entered | unlimited
    · exact absurd entered config
    · exact .inl (starting entered)
    · exact .inr (.inr unlimited)
  | teardown => exact .of_zero rfl
  | join | leave => exact h g

/-- Settles O52: each of the two laws is kept by every change of the roster, and holds at reset. -/
theorem stepKeepsLeasesAndPatience : Obligations.StepKeepsLeasesAndPatience := by
  simp only [Obligations.StepKeepsLeasesAndPatience, leasesOrdered_iff, patienceHeld_iff]
  exact ⟨roster_law RosterStep.ordered (fun _ _ h => h) ((leasesOrdered_iff _).mp resetMeetsEveryLaw.leases),
    roster_law RosterStep.patient (fun _ _ h => h) ((patienceHeld_iff _).mp resetMeetsEveryLaw.patience)⟩

/-! ## Epochs (R30, R80) -/

theorem epoch_of_roster {s t : State} (same : roster t = roster s) (g : GroupId) :
    (t.group g).epoch = (s.group g).epoch :=
  congrFun (congrArg Roster.epoch same) g

theorem epoch_of_runs {s t : State} (run : Runs s t) (g : GroupId) : (t.group g).epoch = (s.group g).epoch := by
  have kept : ∀ {r r'}, Relation.ReflTransGen RosterStep r r' → r'.epoch = r.epoch := fun run => by
    induction run with
    | refl => rfl
    | tail _ last ih => cases last <;> exact ih
  exact congrFun (kept run) g

/-- A group that an evaluation may commit: SEALED, with no acknowledgment owed (R82, R83, R88). -/
structure Cleared (r : Group) : Prop where
  closed : r.state = .sealed
  owed : r.outstanding = PortSet.none

/-- An epoch one step on, at an evaluation that finds the group cleared. -/
def Advanced (r r' : Group) : Prop := Cleared r ∧ r'.epoch = nextEpoch r.epoch

theorem advanced_committedRecord (frame : Half) {r : Group} (cleared : Cleared r) : Advanced r (committedRecord frame r) :=
  ⟨cleared, rfl⟩

/-- The evaluation of a group changes no epoch but that of the group, and that only where it is cleared (R82, R83). -/
theorem epoch_evaluateGroup (frame : Half) (k g : GroupId) (s : State) :
    ((evaluateGroup frame k s).group g).epoch = (s.group g).epoch
      ∨ k = g ∧ Advanced (s.group g) ((evaluateGroup frame k s).group g) := by
  have counted : ∀ c, roster (s.setGroup k { s.group k with countdown := c }) = roster s := fun c =>
    roster_setGroup_same rfl rfl
  by_cases closed : (s.group k).state = .sealed
  · rcases Nat.lt_or_ge 1 (s.group k).countdown.toNat with waits | due
    · rw [evaluateGroup_waiting closed waits]
      exact .inl (epoch_of_roster (counted _) g)
    · rw [evaluateGroup_due closed due]
      split
      · next owed =>
        rw [group_commitGroup]
        split
        · next here =>
          subst here
          exact .inr ⟨rfl, advanced_committedRecord frame ⟨closed, owed⟩⟩
        · exact .inl rfl
      · exact .inl (epoch_of_roster ((roster_deferGroup k _).trans (counted _)) g)
  · rw [evaluateGroup_unsealed closed]
    exact .inl rfl

/-- The evaluation of a bundle changes the epochs of cleared members only (R88, R89). -/
theorem epoch_evaluateBundle (frame : Half) (b : BundleId) (g : GroupId) (s : State) :
    ((evaluateBundle frame b s).group g).epoch = (s.group g).epoch
      ∨ inSet (s.bundle b) g = true ∧ Advanced (s.group g) ((evaluateBundle frame b s).group g) := by
  by_cases ready : BundleReady s b
  · rw [evaluateBundle_ready frame ready, group_foldl_commitGroup]
    split
    · next sealed =>
      obtain ⟨member, closed⟩ := sealedIn_eq_true.mp sealed
      exact .inr ⟨member, advanced_committedRecord frame ⟨closed, (ready.2.2 g sealed).2⟩⟩
    · exact .inl rfl
  · rw [evaluateBundle_notReady frame ready]
    exact .inl (epoch_heldBack s b g)

/-- A group's evaluation does nothing to the groups, or it acts on the records as they are (R80). -/
theorem groupEvaluation_cases (k : GroupId) (s : State) :
    (∃ t, exec (.groupEvaluation k) s = .next t ∧ ∀ g, t.group g = s.group g)
    ∨ ∃ w boundaries, AtWork s w ∧ w.opened = true ∧ inSet w.groupEvals k = true ∧ w.void = false ∧ s.mode = .running
        ∧ exec (.groupEvaluation k) s = .next (evaluateGroup w.frame k { s with boundaries := boundaries }) := by
  by_cases owed : ∃ w, AtWork s w ∧ w.opened = true ∧ inSet w.groupEvals k = true
  · obtain ⟨w, ⟨before, after, split, closed, open_⟩, opened, owed⟩ := owed
    have evaluated := groupEvaluation_owed split closed open_ opened owed
    by_cases acts : s.actsAt w = true
    · obtain ⟨running, valid⟩ := actsAt_eq_true.mp acts
      rw [if_pos acts] at evaluated
      exact .inr ⟨w, _, ⟨before, after, split, closed, open_⟩, opened, owed, valid, running, evaluated⟩
    · rw [if_neg acts] at evaluated
      exact .inl ⟨_, evaluated, fun _ => rfl⟩
  · refine .inl ⟨s, groupEvaluation_notOwed fun w at_ => ?_, fun _ => rfl⟩
    by_contra both
    rw [not_or, Bool.not_eq_false, Bool.not_eq_false] at both
    exact owed ⟨w, at_, both⟩

/-- Settles O57: a tenure keeps the epochs, resets them, or is an evaluation, which advances those of cleared groups. -/
theorem epochAdvancesOnlyAtClearedEvaluation : Obligations.EpochAdvancesOnlyAtClearedEvaluation := by
  intro s t g c rest next hstep changed
  have ran : exec c { s with pending := rest } = .next t := (step_eq_exec next).symm.trans hstep
  cases step_tenure next hstep with
  | runs run => exact absurd (epoch_of_runs run g) changed
  | reset resets fresh =>
    refine .inl ⟨?_, resets⟩
    rw [epoch_of_roster fresh, group_reset]
    rfl
  | evaluated evaluation =>
    rcases evaluation with ⟨k, rfl⟩ | ⟨b, rfl⟩
    · rcases groupEvaluation_cases k { s with pending := rest } with
        ⟨u, idles, same⟩ | ⟨w, boundaries, at_, opened, owed, valid, running, acts⟩
      · obtain rfl := Host.Outcome.next.inj (idles.symm.trans ran)
        exact absurd (congrArg Group.epoch (same g)) changed
      · obtain rfl := Host.Outcome.next.inj (acts.symm.trans ran)
        obtain ⟨rfl, cleared, epoch⟩ := (epoch_evaluateGroup w.frame k g _).resolve_left changed
        exact .inr ⟨⟨w, at_, opened, valid, .inl ⟨rfl, owed⟩⟩, running, cleared.closed, cleared.owed, epoch⟩
    · rcases bundleEvaluation_cases b { s with pending := rest } with
        ⟨u, idles, same⟩ | ⟨w, boundaries, at_, opened, owed, valid, running, acts⟩
      · obtain rfl := Host.Outcome.next.inj (idles.symm.trans ran)
        exact absurd (congrArg Group.epoch (same g)) changed
      · obtain rfl := Host.Outcome.next.inj (acts.symm.trans ran)
        obtain ⟨member, cleared, epoch⟩ := (epoch_evaluateBundle w.frame b g _).resolve_left changed
        exact .inr ⟨⟨w, at_, opened, valid, .inr ⟨b, rfl, owed, member⟩⟩, running, cleared.closed, cleared.owed, epoch⟩

end Sys2Proof.Proofs
end

section
namespace Sys2Proof.Proofs

open Sys2Proof Sys2Proof.Machine

/-! ## What a port is told in one happening (R137, R170, R171) -/

/-- A port unit that a list of notices reaches, in their order; an OFFLINE port queues none. -/
def told (frame : Half) (notices : List Notice) (u : PortUnit) : PortUnit :=
  { u with
    queue := if u.session == .online then notices.foldl (fun queue n => enqueue queue n frame) u.queue else u.queue }

theorem told_nil (frame : Half) (u : PortUnit) : told frame [] u = u := by
  simp [told]

theorem told_offline {u : PortUnit} (frame : Half) (notices : List Notice) (offline : u.session ≠ .online) :
    told frame notices u = u := by
  simp [told, offline]

theorem told_told (frame : Half) (first later : List Notice) (u : PortUnit) :
    told frame later (told frame first u) = told frame (first ++ later) u := by
  cases online : u.session <;> simp [told, online]

/-- Between two states a port is told of these notices, and nothing else becomes of it. -/
structure Tells (q : Port) (s t : State) (notices : List Notice) : Prop where
  unit : t.portUnit q = told s.timing.frameNumber notices (s.portUnit q)
  frame : t.timing.frameNumber = s.timing.frameNumber

section
variable {q : Port} {s t u : State} {first later : List Notice}

/-- A change that does not touch the ports and the frame number. -/
theorem Tells.nothing (ports : t.ports = s.ports) (timing : t.timing = s.timing) : Tells q s t [] where
  unit := by rw [told_nil, State.portUnit, ports, State.portUnit]
  frame := by rw [timing]

theorem Tells.trans (h : Tells q s t first) (k : Tells q t u later) : Tells q s u (first ++ later) where
  unit := by rw [k.unit, h.frame, h.unit, told_told]
  frame := k.frame.trans h.frame

/-- A change after it that does not touch the ports and the frame number. -/
theorem Tells.then_nothing (h : Tells q s t first) (ports : u.ports = t.ports) (timing : u.timing = t.timing) :
    Tells q s u first := by
  simpa using h.trans (.nothing ports timing)

end

theorem tells_notify (q p : Port) (n : Notice) (s : State) :
    Tells q s (s.notify p n) (if p = q then [n] else []) where
  unit := by
    rw [portUnit_notify]
    by_cases here : p = q
    · subst here
      by_cases online : (s.portUnit p).session = .online
      · simp [told, online]
      · rw [if_neg fun both => online both.2, told_offline _ _ online]
    · simp [here, told_nil]
  frame := by rw [notify_timing]

theorem tells_notifyOptional (q : Port) (p : Option Port) (n : Notice) (s : State) :
    Tells q s (s.notifyOptional p n) (if p = some q then [n] else []) := by
  cases p with
  | none => exact .nothing rfl rfl
  | some p => simpa [State.notifyOptional] using tells_notify q p n s

theorem tells_notifyEach (q : Port) (ports : List Port) (n : Notice) (s : State) :
    Tells q s (s.notifyEach ports fun _ => n) ((ports.filter (· == q)).map fun _ => n) := by
  induction ports generalizing s with
  | nil => exact .nothing rfl rfl
  | cons p rest ih =>
    have both : Tells q s (s.notifyEach (p :: rest) fun _ => n) _ := (tells_notify q p n s).trans (ih (s.notify p n))
    rw [List.filter_cons]
    by_cases here : p = q
    · rw [if_pos here] at both
      rw [if_pos (beq_iff_eq.mpr here), List.map_cons]
      exact both
    · rw [if_neg here] at both
      rw [if_neg (mt beq_iff_eq.mp here)]
      exact both

theorem tells_notifyMode (q : Port) (new old : Mode) (s : State) :
    Tells q s (s.notifyMode new old) [.modeChange new old] := by
  have once : Port.all.filter (· == q) = [q] := by cases q <;> rfl
  have tells := tells_notifyEach q Port.all (.modeChange new old) s
  rw [once] at tells
  exact tells

/-! ## The entry to CONFIG (R36, R54, R73, R76, R153) -/

/-- What the teardown of a group tells a port, from the group's record before it. -/
def tornDownNotices (q : Port) (g : GroupId) (r : Group) : List Notice :=
  (if r.lessee = some q then [Notice.leaseLost g .stop false] else [])
    ++ (r.waitQueue.filter (· == q)).map (fun _ => Notice.leaseLost g .stop true)
    ++ (if r.state = .staging ∧ r.lessee = some q then [Notice.discarded g .stop false]
        else if r.state = .sealed ∧ r.sealer = some q then [Notice.discarded g .stop true]
        else [])

theorem tells_teardownDiscardNotice (q : Port) (g : GroupId) (r : Group) (s : State) :
    Tells q s (teardownDiscardNotice g r s)
      (if r.state = .staging ∧ r.lessee = some q then [Notice.discarded g .stop false]
        else if r.state = .sealed ∧ r.sealer = some q then [Notice.discarded g .stop true]
        else []) := by
  unfold teardownDiscardNotice
  cases state : r.state with
  | idle => simpa using Tells.nothing rfl rfl
  | staging => simpa using tells_notifyOptional q r.lessee (.discarded g .stop false) s
  | sealed => simpa using tells_notifyOptional q r.sealer (.discarded g .stop true) s

theorem tells_teardownGroup (q : Port) (g : GroupId) (s : State) :
    Tells q s (teardownGroup s g) (tornDownNotices q g (s.group g)) :=
  (((tells_notifyOptional q _ _ s).trans (tells_notifyEach q _ _ _)).trans
    (tells_teardownDiscardNotice q g _ _)).then_nothing rfl rfl

theorem tells_foldl_teardownGroup (q : Port) {gs : List GroupId} (nodup : gs.Nodup) (s : State) :
    Tells q s (gs.foldl teardownGroup s) (gs.flatMap fun g => tornDownNotices q g (s.group g)) := by
  induction gs generalizing s with
  | nil => exact .nothing rfl rfl
  | cons g rest ih =>
    obtain ⟨apart, nodup⟩ := List.nodup_cons.mp nodup
    have others : rest.flatMap (fun h => tornDownNotices q h ((teardownGroup s g).group h)) =
        rest.flatMap fun h => tornDownNotices q h (s.group h) :=
      List.flatMap_congr fun h member => by
        rw [group_teardownGroup, if_neg fun same : g = h => apart (same ▸ member)]
    rw [List.flatMap_cons, ← others]
    exact (tells_teardownGroup q g s).trans (ih nodup _)

/-- What the entry to CONFIG tells a port, in order: MODE, then the teardown from G0 to G15 (R142, R153). -/
def enterConfigNotices (q : Port) (s : State) : List Notice :=
  Notice.modeChange .config s.mode :: allGroups.flatMap fun g => tornDownNotices q g (s.group g)

theorem Tells.tellTiming {q : Port} {s t : State} {notices : List Notice} (h : Tells q s t notices) (m : ModeMessage) :
    Tells q s (tellTiming m t) notices :=
  h.then_nothing rfl rfl

theorem tells_changeMode (q : Port) (new : Mode) (s : State) :
    Tells q s (changeMode new s) [.modeChange new s.mode] :=
  have entered : Tells q s { s with mode := new } [] := .nothing rfl rfl
  entered.trans (tells_notifyMode q new s.mode _)

theorem tells_teardownAll (q : Port) (s : State) :
    Tells q s (teardownAll s) (allGroups.flatMap fun g => tornDownNotices q g (s.group g)) :=
  tells_foldl_teardownGroup q nodup_allGroups s

theorem tells_enterConfig (q : Port) (s : State) : Tells q s (enterConfig s) (enterConfigNotices q s) := by
  have mode := tells_changeMode q .config s.voidWork
  have groups := tells_teardownAll q (changeMode .config s.voidWork)
  simp only [changeMode_group, voidWork_group] at groups
  have voided : Tells q s s.voidWork [] := .nothing rfl rfl
  exact ((voided.trans mode).trans groups).tellTiming .enterConfig

/-- Settles O18, record by record: the teardown's groups and entries, and what it tells each port. -/
theorem teardownLeavesCleanGroups : Obligations.TeardownLeavesCleanGroups :=
  fun s => ⟨enterConfig_eq s, group_enterConfig s, entry_enterConfig s, fun q => (tells_enterConfig q s).unit⟩

/-! ## STOP and RESUME (R134, R149, R152) -/

theorem enterConfig_endTransaction (s : State) (p : Port) :
    enterConfig (s.endTransaction p) = (enterConfig s).endTransaction p := by
  have entries : (enterConfig (s.endTransaction p)).entries = (enterConfig s).entries := entries_ext fun i => by
    rw [entry_enterConfig, entry_enterConfig, endTransaction_entry]
  have groups : (enterConfig (s.endTransaction p)).groups = (enterConfig s).groups := groups_ext fun g => by
    rw [group_enterConfig, group_enterConfig, endTransaction_group]
  have ports : (enterConfig (s.endTransaction p)).ports = ((enterConfig s).endTransaction p).ports := ports_ext fun q => by
    rw [(tells_enterConfig q _).unit, portUnit_endTransaction, portUnit_endTransaction, (tells_enterConfig q s).unit,
      (tells_enterConfig p s).unit]
    split
    · next here => subst here; rfl
    · rfl
  rw [enterConfig_eq, entries, groups, ports]
  rw [State.endTransaction, enterConfig_eq s]
  rfl

theorem changeMode_endTransaction (new : Mode) (s : State) (p : Port) :
    changeMode new (s.endTransaction p) = (changeMode new s).endTransaction p := by
  rw [changeMode, State.notifyMode, changeMode, State.notifyMode, ← notifyEach_endTransaction]
  rfl

/-- STOP before the end of its transaction or after it (R149). -/
theorem stopReply_endTransaction (s : State) (p : Port) :
    stopReply (s.endTransaction p) =
      match s.mode with
      | .config => answer (s.endTransaction p) .mode [0x00#8]
      | .stopping => answer (s.endTransaction p) .already [0x03#8]
      | .running => answer ((changeMode .stopping s.voidWork).endTransaction p) .ok [0x03#8]
      | .starting | .fault => answer ((enterConfig s).endTransaction p) .ok [0x00#8] := by
  rw [← changeMode_endTransaction, ← enterConfig_endTransaction]
  rfl

/-- Settles O17, by the mode; the entry to CONFIG does not look at the transaction that ends. -/
theorem stopAndResumeByMode : Obligations.StopAndResumeByMode := by
  refine ⟨fun p tag s taken => ?_, fun p tag s taken => ⟨fun fault => ?_, fun other => ?_⟩⟩
  · have stops : ∀ {t status data}, stopReply (s.endTransaction p) = answer (t.endTransaction p) status data →
        exec (.stop p tag) s = .next (answered p tag status data t) := takeCommand_answered taken rfl
    have reply := stopReply_endTransaction s p
    cases mode : s.mode with
    | config => rw [mode] at reply; exact stops reply
    | stopping => rw [mode] at reply; exact stops reply
    | starting => rw [mode] at reply; exact stops reply
    | fault => rw [mode] at reply; exact stops reply
    | running =>
      rw [mode] at reply
      rw [changeMode_of_mode (s := s.voidWork) mode] at reply
      exact stops reply
  · refine takeCommand_answered taken rfl (t := { s with timing := { s.timing with resumeArmed := true } }) ?_
    unfold resumeReply
    split
    · rfl
    all_goals
      next other => exact absurd (other.symm.trans fault) nofun
  · refine takeCommand_answered taken rfl ?_
    unfold resumeReply
    split
    · next fault => exact absurd fault other
    all_goals rfl

end Sys2Proof.Proofs
end

section
namespace Sys2Proof.Proofs

open Sys2Proof Sys2Proof.Machine

/-! ## DEFINE_GROUP (R34) -/

theorem defineGroupBody_argument {group staleLimit : Byte} (ackDeadline patienceLimit : Byte)
    (bad : 16 ≤ group.toNat ∨ staleLimit = 0#8) (s : State) :
    defineGroupBody group staleLimit ackDeadline patienceLimit s = answer s .argument [] := by
  unfold defineGroupBody
  split
  · rfl
  · next g named =>
    refine if_pos (bad.resolve_left fun high => ?_)
    rw [groupOf_eq_none.mpr high] at named
    cases named

theorem defineGroupBody_ok (g : GroupId) {staleLimit : Byte} (ackDeadline patienceLimit : Byte)
    (limited : staleLimit ≠ 0#8) (s : State) :
    defineGroupBody (groupByte g) staleLimit ackDeadline patienceLimit s =
      answer
        (s.setGroup g
          { s.group g with staleLimit := staleLimit, ackDeadline := ackDeadline, patienceLimit := patienceLimit })
        .ok [groupByte g, staleLimit, ackDeadline, patienceLimit] := by
  rw [defineGroupBody, groupOf_groupByte]
  exact if_neg limited

/-- Settles O25: the mode and the claim by `claimed` (R145), then the answers of `defineGroupBody`. -/
theorem defineGroupReplacesParameters : Obligations.DefineGroupReplacesParameters := by
  intro p tag group staleLimit ackDeadline patienceLimit s taken
  have accepted : Command.defineGroup.accepts 4 = true := rfl
  refine ⟨fun mode => ?_, fun config claim => ?_, fun config claim bad => ?_, fun g named config claim limited => ?_⟩
  · exact takeCommand_answered taken accepted (by simp [claimed, mode])
  · exact takeCommand_answered taken accepted (by simp [claimed, config, claim])
  · exact takeCommand_claimed_answered (refusal := fun _ => []) taken accepted config claim
      (defineGroupBody_argument ackDeadline patienceLimit bad _)
  · subst named
    exact takeCommand_claimed_answered (refusal := fun _ => []) taken accepted config claim
      (defineGroupBody_ok g ackDeadline patienceLimit limited _)

/-! ## GROUP_STATUS (R38, R183) -/

theorem bundleHolding_eq_some {s : State} {g : GroupId} {b : BundleId} (held : inSet (s.bundle b) g = true)
    (only : ∀ c, inSet (s.bundle c) g = true → c = b) : bundleHolding s g = some b := by
  unfold bundleHolding
  cases look : allBundles.find? fun c => inSet (s.bundle c) g with
  | none => exact absurd held (List.find?_eq_none.mp look b (mem_allBundles b))
  | some c => rw [only c (List.find?_some (p := fun c => inSet (s.bundle c) g) look)]

theorem bundleHolding_eq_none {s : State} {g : GroupId} (loose : ∀ b, inSet (s.bundle b) g = false) :
    bundleHolding s g = none :=
  List.find?_eq_none.mpr fun b _ => by simp [loose b]

/-- The last byte of the record of a group: the bundle that holds it, FFh without one (R86, R176). -/
theorem optionalBundle_bundleHolding {s : State} {g : GroupId} {bundle : Byte}
    (h : (∃ b : BundleId, inSet (s.bundle b) g = true ∧ (∀ c, inSet (s.bundle c) g = true → c = b)
          ∧ bundle = BitVec.ofNat 8 b.val)
        ∨ ((∀ b, inSet (s.bundle b) g = false) ∧ bundle = 0xFF#8)) :
    optionalBundle (bundleHolding s g) = bundle := by
  rcases h with ⟨b, held, only, rfl⟩ | ⟨loose, rfl⟩
  · rw [bundleHolding_eq_some held only]
    rfl
  · rw [bundleHolding_eq_none loose]
    rfl

theorem optionalFrame_eq (frame : Option Half) :
    optionalFrame frame =
      match frame with
      | none => [0#8, 0#8, 0#8]
      | some f => [1#8, f.extractLsb' 8 8, f.extractLsb' 0 8] :=
  match frame with
  | none => rfl
  | some _ => rfl

theorem groupStatusReply_argument (p : Port) {group : Byte} (high : 16 ≤ group.toNat) (s : State) :
    groupStatusReply p group s = answer s .argument [] := by
  rw [groupStatusReply, groupOf_eq_none.mpr high]

theorem groupStatusReply_ok (p : Port) (g : GroupId) (s : State) :
    groupStatusReply p (groupByte g) s = answer s .ok (groupStatusData p g s) := by
  rw [groupStatusReply, groupOf_groupByte]

/-! ### The counts (R38) -/

theorem belongsTo_some (g : GroupId) (e : Entry) : belongsTo g (some e) = true ↔ e.group = g := by
  simp [belongsTo]

theorem stagedIn_value (g : GroupId) (v : ValueEntry) :
    stagedIn g (some (.value v)) = true ↔ v.group = g ∧ v.staged ≠ none := by
  simp [stagedIn, Option.isSome_iff_ne_none]

/-! ### The encodings (R176) -/

theorem portSetByte_bits (set : PortSet) :
    (portSetByte set).getLsbD 0 = set.get .p0 ∧ (portSetByte set).getLsbD 1 = set.get .p1
      ∧ (portSetByte set).getLsbD 2 = set.get .p2 ∧ (portSetByte set).getLsbD 3 = set.get .p3
      ∧ (portSetByte set).extractLsb' 4 4 = 0#4 := by
  obtain ⟨p0, p1, p2, p3⟩ := set
  revert p0 p1 p2 p3
  decide

theorem wordsBytes_eq_flatMap (words : List Word) : wordsBytes words = words.flatMap wordBytes := by
  induction words with
  | nil => rfl
  | cons w rest ih => rw [wordsBytes, ih, List.flatMap_cons]

theorem mem_addTo {n : Nat} (set : BitVec n) (i j : Fin n) :
    inSet (addTo set i) j = true ↔ inSet set j = true ∨ j = i := by
  rw [inSet_addTo, Bool.or_eq_true, decide_eq_true_eq, @eq_comm _ i j]

theorem mem_dropFrom {n : Nat} (set : BitVec n) (i j : Fin n) :
    inSet (dropFrom set i) j = true ↔ inSet set j = true ∧ j ≠ i := by
  simp [inSet_dropFrom, @eq_comm _ i j]

/-- The 34 bytes of R183 written out. -/
theorem groupStatusData_eq (p : Port) (g : GroupId) (s : State) :
    groupStatusData p g s =
      let r := s.group g
      let place (k : Nat) : Byte := optionalPort r.waitQueue[k]?
      [groupByte g, groupStateCode r.state, r.epoch.extractLsb' 8 8, r.epoch.extractLsb' 0 8]
        ++ optionalFrame r.lastCommitFrame
        ++ [optionalPort r.lastSealer, optionalPort r.lessee, BitVec.ofNat 8 r.waitQueue.length, place 0, place 1, place 2,
            r.patience, optionalPort r.sealer, flagByte r.marked, r.countdown, r.deferrals, flagByte r.staleReported,
            subscriptionCode r.subscriptions.p0, subscriptionCode r.subscriptions.p1, subscriptionCode r.subscriptions.p2,
            subscriptionCode r.subscriptions.p3, subscriptionCode (r.subscriptions.get p), portSetByte r.outstanding,
            r.ackAge, r.staleLimit, r.ackDeadline, r.patienceLimit, optionalBundle (bundleHolding s g)]
        ++ halfBytes (BitVec.ofNat 16 (entryCount s g)) ++ halfBytes (BitVec.ofNat 16 (stagedCount s g)) := by
  simp only [groupStatusData, List.append_assoc]
  rfl

/-- Settles O26: the record by `groupStatusData_eq`, its last bytes by `optionalBundle_bundleHolding` and the counts. -/
theorem groupStatusShowsRecord : Obligations.GroupStatusShowsRecord := by
  refine ⟨fun p tag s taken => ⟨fun group high => ?_, fun g bundle holder => ?_⟩, fun g v f => ?_, fun _ _ => rfl, ?_, ?_, ?_⟩
  · exact takeCommand_answered taken rfl (groupStatusReply_argument p high _)
  · intro r entries staged place data
    have shown : groupStatusData p g s = data := by
      simp only [groupStatusData_eq, optionalBundle_bundleHolding holder, optionalFrame_eq]
      rfl
    rw [← shown]
    exact ⟨length_groupStatusData p g s, takeCommand_answered taken rfl (groupStatusReply_ok p g _)⟩
  · exact ⟨belongsTo_some g _, belongsTo_some g _, rfl, stagedIn_value g v, rfl, rfl, rfl, rfl⟩
  · exact ⟨rfl, rfl, rfl, rfl, rfl, rfl, rfl, fun _ => rfl, fun _ => rfl, portSetByte_bits, rfl, rfl, rfl, rfl, rfl, rfl, rfl,
      rfl, rfl, rfl, rfl, rfl, rfl⟩
  · exact ⟨fun _ => rfl, fun _ => rfl, wordsBytes_eq_flatMap, fun _ => rfl⟩
  · exact fun n set i j => ⟨rfl, mem_addTo set i j, mem_dropFrom set i j⟩

end Sys2Proof.Proofs
end

section
namespace Sys2Proof.Proofs

open Sys2Proof Sys2Proof.Machine

/-! ## The steps that a boundary owes a group (R29) -/

/-- The shape that the patience step and the ack step share: the oldest boundary that owes the step pays it, and the step
acts unless the boundary no longer acts or the group has committed there (log entries 17 and 20). -/
def takeStep (g : GroupId) (owed : BoundaryWork → Bool) (pay : BoundaryWork → BoundaryWork) (act : State → State)
    (s : State) : State :=
  match s.boundaries.find? owed with
  | none => s
  | some w =>
    let u := State.dropFinished { s with boundaries := modifyFirst owed pay s.boundaries }
    if u.actsAt w && !inSet w.committed g then act u else u

theorem exec_patienceStep (g : GroupId) (s : State) :
    exec (.patienceStep g) s =
      .next (takeStep g (fun w => inSet w.patienceSteps g)
        (fun w => { w with patienceSteps := dropFrom w.patienceSteps g }) (advancePatience g) s) := rfl

theorem exec_ackStep (g : GroupId) (s : State) :
    exec (.ackStep g) s =
      .next (takeStep g (fun w => inSet w.ackSteps g)
        (fun w => { w with ackSteps := dropFrom w.ackSteps g }) (ageGroup g) s) := rfl

section
variable {g : GroupId} {owed : BoundaryWork → Bool} {pay : BoundaryWork → BoundaryWork} {act : State → State} {s : State}

theorem takeStep_none (none_ : ∀ x ∈ s.boundaries, owed x = false) : takeStep g owed pay act s = s := by
  rw [takeStep, List.find?_eq_none.mpr fun x hx => by simp [none_ x hx]]

theorem takeStep_owed {before after : List BoundaryWork} {w : BoundaryWork} (split : s.boundaries = before ++ w :: after)
    (earlier : ∀ x ∈ before, owed x = false) (owes : owed w = true) :
    takeStep g owed pay act s =
      let u := { s with boundaries := (before ++ pay w :: after).filter (fun x => !x.finished) }
      if u.actsAt w && !inSet w.committed g then act u else u := by
  have found : s.boundaries.find? owed = some w :=
    List.find?_eq_some_iff_append.mpr ⟨owes, before, after, split, fun x hx => by simp [earlier x hx]⟩
  rw [takeStep, found, split, modifyFirst_append owed pay before after w earlier owes]
  rfl

end

/-- Whether a step that a boundary owes acts (R29; log entries 17 and 20). -/
theorem stepActs_iff (s : State) (w : BoundaryWork) (g : GroupId) :
    (s.actsAt w && !inSet w.committed g) = true ↔ s.mode = .running ∧ w.void = false ∧ inSet w.committed g = false := by
  simp [actsAt_eq_true, and_assoc]

section
variable {s : State} {w : BoundaryWork} {g : GroupId} {resting : Prop}

/-- At a step that acts, a ground to rest is one in the group itself. -/
theorem idles_iff (acts : (s.actsAt w && !inSet w.committed g) = true) :
    s.mode ≠ .running ∨ w.void = true ∨ inSet w.committed g = true ∨ resting ↔ resting := by
  obtain ⟨running, valid, uncommitted⟩ := (stepActs_iff s w g).mp acts
  simp [running, valid, uncommitted]

theorem idles_of_not_acts (idle : ¬ (s.actsAt w && !inSet w.committed g) = true) :
    s.mode ≠ .running ∨ w.void = true ∨ inSet w.committed g = true ∨ resting := by
  by_contra h
  simp only [not_or, not_not, Bool.not_eq_true] at h
  obtain ⟨running, valid, uncommitted, -⟩ := h
  exact idle ((stepActs_iff s w g).mpr ⟨running, valid, uncommitted⟩)

end

/-! ## The patience step (R49, R50) -/

theorem losesPatience_iff (r : Group) :
    losesPatience r = true ↔ r.patienceLimit ≠ 0#8 ∧ r.waitQueue ≠ [] ∧ r.state ≠ .sealed := by
  simp [losesPatience, and_assoc]

theorem advancePatience_of_idles {g : GroupId} {s : State}
    (h : (s.group g).patienceLimit = 0#8 ∨ (s.group g).waitQueue = [] ∨ (s.group g).state = .sealed) :
    advancePatience g s = s := by
  refine if_neg fun loses => ?_
  obtain ⟨limited, waiting, unsealed⟩ := (losesPatience_iff _).mp loses
  rcases h with unlimited | empty | closed
  · exact limited unlimited
  · exact waiting empty
  · exact unsealed closed

/-! ### A revocation looks at no counter (R43, R50) -/

/-- A state but for the patience counter of a group. -/
def counted (g : GroupId) (c : Byte) (s : State) : State := s.setGroup g { s.group g with patience := c }

section
variable (g : GroupId) (c : Byte) (s : State)

theorem group_counted : (counted g c s).group g = { s.group g with patience := c } := group_setGroup_self _ _ _

theorem notify_setGroup (p : Port) (n : Notice) (r : Group) : (s.setGroup g r).notify p n = (s.notify p n).setGroup g r := by
  unfold State.notify
  rw [apply_ite (State.setGroup · g r)]
  rfl

theorem notify_counted (p : Port) (n : Notice) : (counted g c s).notify p n = counted g c (s.notify p n) := by
  rw [counted, notify_setGroup, counted, notify_group]

theorem discardSet_counted : discardSet g (counted g c s) = counted g c (discardSet g s) := by
  simp only [discardSet, counted, State.modifyGroup, group_setGroup_self, setGroup_setGroup, mapEntries_group]
  exact setGroup_setGroup (s.mapEntries (discardEntry g)) g _ _

theorem stagingDiscarded_counted : stagingDiscarded g (counted g c s) = counted g c (stagingDiscarded g s) := by
  unfold stagingDiscarded
  rw [group_counted, discardSet_counted]
  exact (apply_ite (counted g c) _ _ _).symm

theorem freeLease_counted (event : FreeingEvent) : freeLease g event (counted g c s) = freeLease g event s := by
  simp only [freeLease, group_counted]
  simp only [counted, setGroup_setGroup]

theorem giveUpLease_counted (event : FreeingEvent) : giveUpLease g event (counted g c s) = giveUpLease g event s := by
  rw [giveUpLease_eq, giveUpLease_eq, stagingDiscarded_counted, freeLease_counted]

end

section
variable {g : GroupId} {s : State} {holder next : Port} {rest : List Port}

/-- The revocation of a lease by a counter that has just been advanced (R50). -/
theorem revokeLease_counted (lease : (s.group g).lessee = some holder) (c : Byte) :
    revokeLease g (counted g c s) =
      giveUpLease g .patience
        (if (s.group g).state = .staging then
          (s.notify holder (.leaseLost g .patience false)).notify holder (.discarded g .patience false)
        else s.notify holder (.leaseLost g .patience false)) := by
  simp only [revokeLease, group_counted, lease, State.notifyOptional, notify_counted]
  split
  · exact giveUpLease_counted g c _ .patience
  · exact giveUpLease_counted g c _ .patience

theorem giveUpLease_staging (event : FreeingEvent) (staging : (s.group g).state = .staging)
    (waiting : (s.group g).waitQueue = next :: rest) :
    giveUpLease g event s =
      let v := discardSet g s
      (v.setGroup g { v.group g with lessee := some next, waitQueue := rest, patience := 0#8 }).notify next
        (.leaseGranted g event) := by
  rw [giveUpLease, if_pos staging, freeLease_cons]
  rw [group_discardSet, if_pos rfl]
  exact waiting

theorem giveUpLease_kept (event : FreeingEvent) (kept : (s.group g).state ≠ .staging)
    (waiting : (s.group g).waitQueue = next :: rest) :
    giveUpLease g event s =
      (s.setGroup g { s.group g with lessee := some next, waitQueue := rest, patience := 0#8 }).notify next
        (.leaseGranted g event) := by
  rw [giveUpLease, if_neg kept, freeLease_cons waiting]

/-- The patience step of a group that has a limit and a waiting port, and that is not SEALED (R49, R50, R75). -/
theorem advancePatience_waiting (limited : (s.group g).patienceLimit ≠ 0#8)
    (waiting : (s.group g).waitQueue = next :: rest) (unsealed : (s.group g).state ≠ .sealed)
    (lease : (s.group g).lessee = some holder) :
    advancePatience g s =
      let r := s.group g
      if r.patience + 1#8 ≠ r.patienceLimit then s.setGroup g { r with patience := r.patience + 1#8 }
      else if r.state = .staging then
        let v := discardSet g ((s.notify holder (.leaseLost g .patience false)).notify holder (.discarded g .patience false))
        (v.setGroup g { v.group g with lessee := some next, waitQueue := rest, patience := 0#8 }).notify next
          (.leaseGranted g .patience)
      else
        ((s.notify holder (.leaseLost g .patience false)).setGroup g
          { r with lessee := some next, waitQueue := rest, patience := 0#8 }).notify next (.leaseGranted g .patience) := by
  have loses : losesPatience (s.group g) = true :=
    (losesPatience_iff _).mpr ⟨limited, waiting ▸ List.cons_ne_nil _ _, unsealed⟩
  have revoked := revokeLease_counted lease ((s.group g).patience + 1#8)
  simp only [advancePatience, if_pos loses, ite_not]
  refine ite_congr rfl (fun _ => revoked.trans ?_) fun _ => rfl
  by_cases staging : (s.group g).state = .staging
  · rw [if_pos staging, if_pos staging]
    exact giveUpLease_staging .patience (by simpa using staging) (by simpa using waiting)
  · rw [if_neg staging, if_neg staging, giveUpLease_kept .patience (by simpa using staging) (by simpa using waiting),
      notify_group]

end

/-- Settles O44: the shape of a step by `takeStep`, its effect by `advancePatience_waiting`. -/
theorem patienceStepRevokesAtLimit : Obligations.PatienceStepRevokesAtLimit := by
  refine fun g s => ⟨fun before w after split earlier owes => ?_, fun none_ => ?_⟩
  · intro u r
    rw [exec_patienceStep, takeStep_owed split earlier owes]
    refine ⟨fun idles => congrArg Host.Outcome.next ?_,
      fun holder next rest running valid uncommitted limited waiting unsealed lease => congrArg Host.Outcome.next ?_⟩
    · by_cases acts : (u.actsAt w && !inSet w.committed g) = true
      · exact (if_pos acts).trans (advancePatience_of_idles (s := u) ((idles_iff acts).mp idles))
      · exact if_neg acts
    · exact (if_pos ((stepActs_iff u w g).mpr ⟨running, valid, uncommitted⟩)).trans
        (advancePatience_waiting (s := u) limited waiting unsealed lease)
  · rw [exec_patienceStep, takeStep_none none_]

/-! ## The ack step (R112, R114) -/

theorem portCount_eq (set : PortSet) : portCount set = ([Port.p0, .p1, .p2, .p3].filter set.get).length :=
  List.countP_eq_length_filter

section
variable {g : GroupId} {s : State}

/-- The notice of a lapse for a last sealer that does not owe (R115). -/
theorem notifyEach_lastSealer (last : Option Port) (owing : PortSet) (n : Notice) (s : State) :
    s.notifyEach (last.toList.filter fun q => !owing.get q) (fun _ => n) =
      match last with
      | some q => if owing.get q = true then s else s.notify q n
      | none => s := by
  cases last with
  | none => rfl
  | some q =>
    by_cases owes : owing.get q = true
    · simp [owes, State.notifyEach]
    · simp [owes, State.notifyEach]

/-- The ack step of a group that has not committed at the boundary (R112, R114, R115). -/
theorem ageGroup_eq :
    ageGroup g s =
      let r := s.group g
      if r.outstanding = ⟨false, false, false, false⟩ ∨ r.ackAge = 255#8 then s
      else
        let age := r.ackAge + 1#8
        if r.ackDeadline = 0#8 ∨ age ≠ r.ackDeadline then s.setGroup g { r with ackAge := age }
        else
          let holdouts := [Port.p0, .p1, .p2, .p3].filter r.outstanding.get
          let count := BitVec.ofNat 8 holdouts.length
          let after (q : Port) : Subscription := if r.outstanding.get q then .lapsed else r.subscriptions.get q
          let v := (s.setGroup g
            { r with
              ackAge := age, outstanding := ⟨false, false, false, false⟩
              subscriptions := ⟨after .p0, after .p1, after .p2, after .p3⟩ }).notifyEach holdouts
              (fun _ => .lapsed g r.epoch false count)
          match r.lastSealer with
          | some q => if r.outstanding.get q = true then v else v.notify q (.lapsed g r.epoch true count)
          | none => v := by
  refine ite_congr rfl (fun _ => rfl) fun _ => ?_
  by_cases due : (s.group g).ackDeadline ≠ 0#8 ∧ (s.group g).ackAge + 1#8 = (s.group g).ackDeadline
  · rw [if_pos due, if_neg (by tauto)]
    simp only [lapseGroup, group_setGroup_self, setGroup_setGroup, notifyEach_lastSealer, portCount_eq]
    rfl
  · rw [if_neg due, if_pos (by tauto)]

end

/-- Settles O45: the shape of a step by `takeStep`, its effect by `ageGroup_eq`. -/
theorem ackStepLapsesAtDeadline : Obligations.AckStepLapsesAtDeadline := by
  refine fun g s => ⟨fun before w after split earlier owes => ?_, fun none_ => ?_⟩
  · intro u r
    rw [exec_ackStep, takeStep_owed split earlier owes]
    refine congrArg Host.Outcome.next ?_
    by_cases acts : (u.actsAt w && !inSet w.committed g) = true
    · exact ((if_pos acts).trans ageGroup_eq).trans
        (ite_congr (propext (idles_iff acts)).symm (fun _ => rfl) fun _ => rfl)
    · exact (if_neg acts).trans (if_pos (idles_of_not_acts acts)).symm
  · rw [exec_ackStep, takeStep_none none_]

end Sys2Proof.Proofs
end
